-- ==== Sys2Proof/Word.lean ====
section
/-! DEFINITION. The word types of the machine (`spec/00_scope.md` R5, `spec/30_encoding.md` R97). -/

namespace Sys2Proof

/-- A byte: a V register, a timer, one memory location (R5). -/
abbrev Byte := BitVec 8

/-- Sixteen bits: the instruction word, `I`, `pc`, a stack entry (R5, D1, D2). -/
abbrev Word := BitVec 16

/-- The 12-bit address field `nnn` (R97). -/
abbrev Addr := BitVec 12

/-- A register index, the fields `x` and `y`: 0 to 15, every value valid (R97). -/
abbrev Reg := Fin 16

/-- The 4-bit count `n` of draw-sprite (R97). -/
abbrev Height := Fin 16

end Sys2Proof
end

