-- ==== Sys2Proof/Syntax.lean ====
section
/-! DEFINITION. The 34 instructions, one constructor per row of the opcode table (`spec/30_encoding.md` R98), operands as R106
names them. A field's type holds exactly the values its bits can hold (R97), so no term of `Instr` is out of range. -/

namespace Sys2Proof

/-- The instruction set (R98). -/
inductive Instr where
  /-- 00E0 clear-screen (R200) -/
  | clearScreen
  /-- 00EE return (R131) -/
  | ret
  /-- 1nnn jump (R132) -/
  | jump (nnn : Addr)
  /-- 2nnn call (R133) -/
  | call (nnn : Addr)
  /-- 3xkk skip-if-eq-immediate (R134) -/
  | skipEqImm (x : Reg) (kk : Byte)
  /-- 4xkk skip-if-neq-immediate (R135) -/
  | skipNeqImm (x : Reg) (kk : Byte)
  /-- 5xy0 skip-if-eq-reg (R136) -/
  | skipEqReg (x y : Reg)
  /-- 6xkk set-immediate (R150) -/
  | setImm (x : Reg) (kk : Byte)
  /-- 7xkk add-immediate (R151) -/
  | addImm (x : Reg) (kk : Byte)
  /-- 8xy0 move (R152) -/
  | move (x y : Reg)
  /-- 8xy1 or (R153) -/
  | orRegs (x y : Reg)
  /-- 8xy2 and (R154) -/
  | andRegs (x y : Reg)
  /-- 8xy3 xor (R155) -/
  | xorRegs (x y : Reg)
  /-- 8xy4 add-regs (R156) -/
  | addRegs (x y : Reg)
  /-- 8xy5 sub-regs (R157) -/
  | subRegs (x y : Reg)
  /-- 8xy6 shift-right (R158) -/
  | shiftRight (x y : Reg)
  /-- 8xy7 sub-regs-reverse (R159) -/
  | subRegsReverse (x y : Reg)
  /-- 8xyE shift-left (R160) -/
  | shiftLeft (x y : Reg)
  /-- 9xy0 skip-if-neq-reg (R137) -/
  | skipNeqReg (x y : Reg)
  /-- Annn set-index (R180) -/
  | setIndex (nnn : Addr)
  /-- Bnnn jump-with-offset (R138) -/
  | jumpOffset (nnn : Addr)
  /-- Cxkk random-masked (R162) -/
  | randomMasked (x : Reg) (kk : Byte)
  /-- Dxyn draw-sprite (R201) -/
  | drawSprite (x y : Reg) (n : Height)
  /-- Ex9E skip-if-key-down (R220) -/
  | skipKeyDown (x : Reg)
  /-- ExA1 skip-if-key-up (R221) -/
  | skipKeyUp (x : Reg)
  /-- Fx07 get-delay-timer (R223) -/
  | getDelay (x : Reg)
  /-- Fx0A wait-for-key (R222) -/
  | waitKey (x : Reg)
  /-- Fx15 set-delay-timer (R224) -/
  | setDelay (x : Reg)
  /-- Fx18 set-sound-timer (R225) -/
  | setSound (x : Reg)
  /-- Fx1E add-to-index (R181) -/
  | addIndex (x : Reg)
  /-- Fx29 sprite-address (R182) -/
  | spriteAddress (x : Reg)
  /-- Fx33 store-bcd (R183) -/
  | storeBcd (x : Reg)
  /-- Fx55 store-registers (R184) -/
  | storeRegs (x : Reg)
  /-- Fx65 load-registers (R185) -/
  | loadRegs (x : Reg)
  deriving DecidableEq, Repr

end Sys2Proof
end

