-- ==== Sys2Proof/WellFormed.lean ====
section
/-! DEFINITION. Which operand numbers an instruction may carry (`spec/30_encoding.md` R97, `spec/00_scope.md` R13). The field
types of `Instr` already hold exactly these ranges, so every term of `Instr` passes; the checks refuse a number that a written
program gives for an operand BEFORE it becomes a term (`regOf?` and its like). -/

namespace Sys2Proof

/-- The four kinds of operand (R97). -/
inductive OperandKind where
  | reg | addr | imm | height
  deriving DecidableEq, Repr

/-- The range of each kind: indices and counts 0 to 15, addresses 0 to 4095, immediates 0 to 255 (R97). -/
def OperandKind.admits : OperandKind → Nat → Bool
  | .reg, n => n < 16
  | .addr, n => n < 4096
  | .imm, n => n < 256
  | .height, n => n < 16

/-- A number as a register index, if it is one. -/
def regOf? (n : Nat) : Option Reg := if h : n < 16 then some ⟨n, h⟩ else none

/-- A number as an address field, if it fits. -/
def addrOf? (n : Nat) : Option Addr := if h : n < 4096 then some (BitVec.ofFin ⟨n, h⟩) else none

/-- A number as an immediate, if it fits. -/
def immOf? (n : Nat) : Option Byte := if h : n < 256 then some (BitVec.ofFin ⟨n, h⟩) else none

/-- A number as a sprite height, if it fits. -/
def heightOf? (n : Nat) : Option Height := if h : n < 16 then some ⟨n, h⟩ else none

/-- An instruction's operands as numbers, in the order R106 writes them. -/
def Instr.operands : Instr → List (OperandKind × Nat)
  | .clearScreen | .ret => []
  | .jump a | .call a | .setIndex a | .jumpOffset a => [(.addr, a.toNat)]
  | .skipEqImm x k | .skipNeqImm x k | .setImm x k | .addImm x k | .randomMasked x k => [(.reg, x.val), (.imm, k.toNat)]
  | .skipEqReg x y | .skipNeqReg x y | .move x y | .orRegs x y | .andRegs x y | .xorRegs x y | .addRegs x y | .subRegs x y
  | .shiftRight x y | .subRegsReverse x y | .shiftLeft x y => [(.reg, x.val), (.reg, y.val)]
  | .drawSprite x y n => [(.reg, x.val), (.reg, y.val), (.height, n.val)]
  | .skipKeyDown x | .skipKeyUp x | .getDelay x | .waitKey x | .setDelay x | .setSound x | .addIndex x | .spriteAddress x
  | .storeBcd x | .storeRegs x | .loadRegs x => [(.reg, x.val)]

/-- Every operand is in the range of its kind. -/
def operandsAdmitted (ops : List (OperandKind × Nat)) : Bool := ops.all fun p => p.1.admits p.2

/-- An instruction is well-formed when its operands are in range (R97). -/
def Instr.wellFormed (i : Instr) : Bool := operandsAdmitted i.operands

end Sys2Proof
end

