-- ==== Sys2Proof/Decode.lean ====
section
/-! DEFINITION. From bytes to an instruction and back (`spec/30_encoding.md` R92, R95 to R104): the fields, the decoder, the
encoder, and the opcode table as mask and match. The bit patterns are the spec's own choice D9 (log entry 6). -/

namespace Sys2Proof

/-! ## Fields (R96) -/

/-- `fam = op[15:12]` -/
def famOf (op : Word) : BitVec 4 := op.extractLsb' 12 4

/-- `x = op[11:8]` -/
def xOf (op : Word) : Reg := (op.extractLsb' 8 4).toFin

/-- `y = op[7:4]` -/
def yOf (op : Word) : Reg := (op.extractLsb' 4 4).toFin

/-- `n = op[3:0]`, as bits: the sub-opcode of families 5, 8 and 9 -/
def nOf (op : Word) : BitVec 4 := op.extractLsb' 0 4

/-- `n = op[3:0]`, as the height of draw-sprite -/
def heightOf (op : Word) : Height := (nOf op).toFin

/-- `kk = op[7:0]` -/
def kkOf (op : Word) : Byte := op.extractLsb' 0 8

/-- `nnn = op[11:0]` -/
def nnnOf (op : Word) : Addr := op.extractLsb' 0 12

/-! ## The decoder (R99, strict: D8) -/

/-- Family 0 compares the whole word. -/
def decodeFixed (op : Word) : Option Instr :=
  if op = 0x00E0 then some .clearScreen else if op = 0x00EE then some .ret else none

/-- Family 8 selects by `n`. -/
def decodeAlu (op : Word) : Option Instr :=
  match nOf op with
  | 0x0#4 => some (.move (xOf op) (yOf op))
  | 0x1#4 => some (.orRegs (xOf op) (yOf op))
  | 0x2#4 => some (.andRegs (xOf op) (yOf op))
  | 0x3#4 => some (.xorRegs (xOf op) (yOf op))
  | 0x4#4 => some (.addRegs (xOf op) (yOf op))
  | 0x5#4 => some (.subRegs (xOf op) (yOf op))
  | 0x6#4 => some (.shiftRight (xOf op) (yOf op))
  | 0x7#4 => some (.subRegsReverse (xOf op) (yOf op))
  | 0xE#4 => some (.shiftLeft (xOf op) (yOf op))
  | _ => none

/-- Family E selects by `kk`. -/
def decodeKeys (op : Word) : Option Instr :=
  match kkOf op with
  | 0x9E#8 => some (.skipKeyDown (xOf op))
  | 0xA1#8 => some (.skipKeyUp (xOf op))
  | _ => none

/-- Family F selects by `kk`. -/
def decodeMisc (op : Word) : Option Instr :=
  match kkOf op with
  | 0x07#8 => some (.getDelay (xOf op))
  | 0x0A#8 => some (.waitKey (xOf op))
  | 0x15#8 => some (.setDelay (xOf op))
  | 0x18#8 => some (.setSound (xOf op))
  | 0x1E#8 => some (.addIndex (xOf op))
  | 0x29#8 => some (.spriteAddress (xOf op))
  | 0x33#8 => some (.storeBcd (xOf op))
  | 0x55#8 => some (.storeRegs (xOf op))
  | 0x65#8 => some (.loadRegs (xOf op))
  | _ => none

/-- The instruction of a word, or none where the word is UnknownOpcode (R99, R103, R104). -/
def decodeWord (op : Word) : Option Instr :=
  match famOf op with
  | 0x0#4 => decodeFixed op
  | 0x1#4 => some (.jump (nnnOf op))
  | 0x2#4 => some (.call (nnnOf op))
  | 0x3#4 => some (.skipEqImm (xOf op) (kkOf op))
  | 0x4#4 => some (.skipNeqImm (xOf op) (kkOf op))
  | 0x5#4 => if nOf op = 0 then some (.skipEqReg (xOf op) (yOf op)) else none
  | 0x6#4 => some (.setImm (xOf op) (kkOf op))
  | 0x7#4 => some (.addImm (xOf op) (kkOf op))
  | 0x8#4 => decodeAlu op
  | 0x9#4 => if nOf op = 0 then some (.skipNeqReg (xOf op) (yOf op)) else none
  | 0xA#4 => some (.setIndex (nnnOf op))
  | 0xB#4 => some (.jumpOffset (nnnOf op))
  | 0xC#4 => some (.randomMasked (xOf op) (kkOf op))
  | 0xD#4 => some (.drawSprite (xOf op) (yOf op) (heightOf op))
  | 0xE#4 => decodeKeys op
  | _ => decodeMisc op -- 0xF, the one family left

/-- Why bytes give no instruction. -/
inductive DecodeError where
  /-- The word matches no row of R98; the machine goes on past it (R103). -/
  | unknownOpcode (op : Word)
  /-- Fewer than two bytes stand in the list; the machine's own fetch never gives so few (R92). -/
  | truncated
  deriving DecidableEq, Repr

/-- The two bytes of an instruction as a word, the first in bits 15 to 8 (R65). -/
def wordOfBytes (hi lo : Byte) : Word := hi ++ lo

/-- The first instruction of a list of bytes, with the bytes after it. -/
def decode : List Byte → Except DecodeError (Instr × List Byte)
  | hi :: lo :: rest =>
    match decodeWord (wordOfBytes hi lo) with
    | some i => .ok (i, rest)
    | none => .error (.unknownOpcode (wordOfBytes hi lo))
  | _ => .error .truncated

/-! ## The encoder, from the formats of R95 -/

/-- Format A: family and `nnn`. -/
def formatA (fam : BitVec 4) (nnn : Addr) : Word := fam ++ nnn

/-- Format XK: family, `x`, `kk`; format X has fixed bits in the place of `kk`. -/
def formatXK (fam : BitVec 4) (x : Reg) (kk : Byte) : Word := fam ++ ((BitVec.ofFin x : BitVec 4) ++ kk)

/-- Formats XY and XYN: family, `x`, `y`, and the low nibble. -/
def formatXYN (fam : BitVec 4) (x y : Reg) (n : BitVec 4) : Word :=
  fam ++ ((BitVec.ofFin x : BitVec 4) ++ ((BitVec.ofFin y : BitVec 4) ++ n))

/-- The word of an instruction (R98). -/
def encode : Instr → Word
  | .clearScreen => 0x00E0
  | .ret => 0x00EE
  | .jump nnn => formatA 0x1 nnn
  | .call nnn => formatA 0x2 nnn
  | .skipEqImm x kk => formatXK 0x3 x kk
  | .skipNeqImm x kk => formatXK 0x4 x kk
  | .skipEqReg x y => formatXYN 0x5 x y 0x0
  | .setImm x kk => formatXK 0x6 x kk
  | .addImm x kk => formatXK 0x7 x kk
  | .move x y => formatXYN 0x8 x y 0x0
  | .orRegs x y => formatXYN 0x8 x y 0x1
  | .andRegs x y => formatXYN 0x8 x y 0x2
  | .xorRegs x y => formatXYN 0x8 x y 0x3
  | .addRegs x y => formatXYN 0x8 x y 0x4
  | .subRegs x y => formatXYN 0x8 x y 0x5
  | .shiftRight x y => formatXYN 0x8 x y 0x6
  | .subRegsReverse x y => formatXYN 0x8 x y 0x7
  | .shiftLeft x y => formatXYN 0x8 x y 0xE
  | .skipNeqReg x y => formatXYN 0x9 x y 0x0
  | .setIndex nnn => formatA 0xA nnn
  | .jumpOffset nnn => formatA 0xB nnn
  | .randomMasked x kk => formatXK 0xC x kk
  | .drawSprite x y n => formatXYN 0xD x y (BitVec.ofFin n)
  | .skipKeyDown x => formatXK 0xE x 0x9E
  | .skipKeyUp x => formatXK 0xE x 0xA1
  | .getDelay x => formatXK 0xF x 0x07
  | .waitKey x => formatXK 0xF x 0x0A
  | .setDelay x => formatXK 0xF x 0x15
  | .setSound x => formatXK 0xF x 0x18
  | .addIndex x => formatXK 0xF x 0x1E
  | .spriteAddress x => formatXK 0xF x 0x29
  | .storeBcd x => formatXK 0xF x 0x33
  | .storeRegs x => formatXK 0xF x 0x55
  | .loadRegs x => formatXK 0xF x 0x65

/-- The high byte of a word, the one at the lower address (R65). -/
def highByte (w : Word) : Byte := w.extractLsb' 8 8

/-- The low byte of a word. -/
def lowByte (w : Word) : Byte := w.extractLsb' 0 8

/-- An instruction's two bytes in the order they stand in memory (R65). -/
def encodeBytes (i : Instr) : List Byte := [highByte (encode i), lowByte (encode i)]

/-! ## The table's own numbering -/

/-- What the decoder reads from a word of `nbits` bits numbered as the opcode table numbers them (one 16-bit word, bit 0 its
least significant), laid out as the hardware stores it. -/
def decodeTableWord (nbits w : Nat) : Option Instr :=
  let op : Word := BitVec.ofNat 16 (w % 2 ^ nbits)
  match decode [highByte op, lowByte op] with
  | .ok (i, _) => some i
  | .error _ => none

/-! ## The opcode map as R98 prints it -/

/-- One row of the table of R98: a word is the instruction exactly when `op & mask = match`. -/
structure OpcodeRow where
  mnemonic : String
  mask : Word
  pattern : Word
  deriving DecidableEq, Repr

/-- Whether a word falls under a row. -/
def OpcodeRow.covers (r : OpcodeRow) (op : Word) : Bool := op &&& r.mask == r.pattern

/-- The rows of R98, families 0 to 7. -/
def opcodeRowsLow : List OpcodeRow := [
  ⟨"clear-screen", 0xFFFF, 0x00E0⟩, ⟨"return", 0xFFFF, 0x00EE⟩, ⟨"jump", 0xF000, 0x1000⟩, ⟨"call", 0xF000, 0x2000⟩,
  ⟨"skip-if-eq-immediate", 0xF000, 0x3000⟩, ⟨"skip-if-neq-immediate", 0xF000, 0x4000⟩, ⟨"skip-if-eq-reg", 0xF00F, 0x5000⟩,
  ⟨"set-immediate", 0xF000, 0x6000⟩, ⟨"add-immediate", 0xF000, 0x7000⟩]

/-- The rows of R98, families 8 and 9. -/
def opcodeRowsAlu : List OpcodeRow := [
  ⟨"move", 0xF00F, 0x8000⟩, ⟨"or", 0xF00F, 0x8001⟩, ⟨"and", 0xF00F, 0x8002⟩, ⟨"xor", 0xF00F, 0x8003⟩,
  ⟨"add-regs", 0xF00F, 0x8004⟩, ⟨"sub-regs", 0xF00F, 0x8005⟩, ⟨"shift-right", 0xF00F, 0x8006⟩,
  ⟨"sub-regs-reverse", 0xF00F, 0x8007⟩, ⟨"shift-left", 0xF00F, 0x800E⟩, ⟨"skip-if-neq-reg", 0xF00F, 0x9000⟩]

/-- The rows of R98, families A to F. -/
def opcodeRowsHigh : List OpcodeRow := [
  ⟨"set-index", 0xF000, 0xA000⟩, ⟨"jump-with-offset", 0xF000, 0xB000⟩, ⟨"random-masked", 0xF000, 0xC000⟩,
  ⟨"draw-sprite", 0xF000, 0xD000⟩, ⟨"skip-if-key-down", 0xF0FF, 0xE09E⟩, ⟨"skip-if-key-up", 0xF0FF, 0xE0A1⟩,
  ⟨"get-delay-timer", 0xF0FF, 0xF007⟩, ⟨"wait-for-key", 0xF0FF, 0xF00A⟩, ⟨"set-delay-timer", 0xF0FF, 0xF015⟩,
  ⟨"set-sound-timer", 0xF0FF, 0xF018⟩, ⟨"add-to-index", 0xF0FF, 0xF01E⟩, ⟨"sprite-address", 0xF0FF, 0xF029⟩,
  ⟨"store-bcd", 0xF0FF, 0xF033⟩, ⟨"store-registers", 0xF0FF, 0xF055⟩, ⟨"load-registers", 0xF0FF, 0xF065⟩]

/-- The opcode map (R98), 34 rows. -/
def opcodeRows : List OpcodeRow := opcodeRowsLow ++ opcodeRowsAlu ++ opcodeRowsHigh

/-- The name the spec gives an instruction (R106). -/
def Instr.mnemonic : Instr → String
  | .clearScreen => "clear-screen" | .ret => "return" | .jump _ => "jump" | .call _ => "call"
  | .skipEqImm _ _ => "skip-if-eq-immediate" | .skipNeqImm _ _ => "skip-if-neq-immediate"
  | .skipEqReg _ _ => "skip-if-eq-reg" | .setImm _ _ => "set-immediate" | .addImm _ _ => "add-immediate"
  | .move _ _ => "move" | .orRegs _ _ => "or" | .andRegs _ _ => "and" | .xorRegs _ _ => "xor"
  | .addRegs _ _ => "add-regs" | .subRegs _ _ => "sub-regs" | .shiftRight _ _ => "shift-right"
  | .subRegsReverse _ _ => "sub-regs-reverse" | .shiftLeft _ _ => "shift-left" | .skipNeqReg _ _ => "skip-if-neq-reg"
  | .setIndex _ => "set-index" | .jumpOffset _ => "jump-with-offset" | .randomMasked _ _ => "random-masked"
  | .drawSprite _ _ _ => "draw-sprite" | .skipKeyDown _ => "skip-if-key-down" | .skipKeyUp _ => "skip-if-key-up"
  | .getDelay _ => "get-delay-timer" | .waitKey _ => "wait-for-key" | .setDelay _ => "set-delay-timer"
  | .setSound _ => "set-sound-timer" | .addIndex _ => "add-to-index" | .spriteAddress _ => "sprite-address"
  | .storeBcd _ => "store-bcd" | .storeRegs _ => "store-registers" | .loadRegs _ => "load-registers"

end Sys2Proof
end

