-- ==== Sys2Proof/Config.lean ====
section
/-! DEFINITION. What is fixed for the machine, and the values the spec leaves open (free values: constants with no body, of
which nothing can be proved). -/

namespace Sys2Proof.Config

/-- The entry address, the value of `pc` after RESET (`spec/10_state.md` R36). -/
abbrev entry : Word := 0x200

/-- Bytes of memory, addresses 0 to 4095 (`spec/20_memory.md` R60). -/
abbrev memSize : Nat := 4096

/-- The longest program image, 4096 - 0x200 bytes (`spec/00_scope.md` R5). -/
abbrev maxProgram : Nat := 3584

/-- FREE VALUE (safe; log entry 2). The random byte `rnd` of the `k`-th draw: any value, under no law
(`spec/41_alu.md` R162, `spec/93_implementation_defined.md` U3). -/
opaque freeByte : Nat → Byte

/-- FREE VALUE (DESIGN CHOICE, log entry 3). What sprite-address leaves in `I` when VX is above 15: "a fresh 16-bit draw"
(`spec/93_implementation_defined.md` U1, `spec/42_index_memory.md` R182). -/
opaque freeIndex : Nat → Word

end Sys2Proof.Config
end

