-- ==== Sys2Proof/Machine/State.lean ====
section
/-! DEFINITION. The machine's state as plain data, and the state after RESET (`spec/10_state.md`). -/

namespace Sys2Proof.Machine

/-- The seven hard failures (`spec/60_exceptions.md` R241). -/
inductive Cause where
  /-- STEP's fetch: `pc` above 4094 (R242). -/
  | fetchOutOfBounds
  /-- `call` with `sp = 16` (R243). -/
  | stackOverflow
  /-- `return` with `sp = 0` (R243). -/
  | stackUnderflow
  /-- A key skip with VX above 15 (R244). -/
  | keyIndexOutOfRange
  /-- SETKEY with an index above 15 (R244). -/
  | invalidKeyIndex
  /-- LOAD of more than 3584 bytes (R245). -/
  | outOfMemory
  /-- A data access that runs past address 4095 (R245). -/
  | memoryOutOfBounds
  deriving DecidableEq, Repr

/-- What the fault latch records (`spec/10_state.md` R34). -/
structure FaultRecord where
  cause : Cause
  iaddr : Word
  word : Word
  deriving DecidableEq, Repr

/-- The 4096 bytes of memory as (address, byte) pairs: addresses strictly rising, no byte 0 listed. An address not listed
reads 0, the spec's own content after RESET (R33, R36). -/
abbrev Memory := List Host.Cell

/-- The 64 by 32 pixels, row by row: `fb[y][x]` (R31). -/
abbrev Screen := Vector (Vector Bool 64) 32

/-- Everything the spec gives the machine (R36), and two fields of the model's own at the end. -/
structure State where
  /-- V0 to VF (R20); VF is also the flag (R21) -/
  v : Vector Byte 16
  /-- the index register `I` (R24) -/
  index : Word
  /-- the program counter (R25) -/
  pc : Word
  /-- the number of live stack entries, 0 to 16 (R29) -/
  sp : Fin 17
  /-- the 16 return addresses (R28) -/
  stack : Vector Word 16
  /-- the delay timer (R30) -/
  dt : Byte
  /-- the sound timer (R30) -/
  st : Byte
  /-- memory (R33) -/
  mem : Memory
  /-- the framebuffer (R31) -/
  fb : Screen
  /-- the key flags (R32) -/
  key : Vector Bool 16
  /-- the fault latch (R34) -/
  fault : Option FaultRecord
  /-- MODEL'S OWN (log entry 2): the argument of the STEP in progress where the command names it, none where it is free -/
  rndIn : Option Byte
  /-- MODEL'S OWN (log entry 3): how many free values have been drawn -/
  draws : Nat
  deriving DecidableEq, Repr

/-- The state after RESET (`spec/10_state.md` R36, `spec/70_reset_and_hazards.md` R290). -/
def State.reset : State where
  v := Vector.replicate 16 0
  index := 0
  pc := Config.entry
  sp := 0
  stack := Vector.replicate 16 0
  dt := 0
  st := 0
  mem := []
  fb := Vector.replicate 32 (Vector.replicate 64 false)
  key := Vector.replicate 16 false
  fault := none
  rndIn := none
  draws := 0

/-- Why a step stops. -/
inductive Fault where
  /-- Raised by `step` when the fault latch is already set: the block is stopped, STEP changes nothing and returns the latched
  cause (`spec/30_encoding.md` R91, `spec/60_exceptions.md` R247). The failing command itself is a next state with the latch
  set, never this. Safe: the machine stops where the hardware is stopped. -/
  | latched (cause : Cause)
  deriving DecidableEq, Repr

/-- Why a command or an instruction has no meaning. -/
inductive Refusal where
  /-- Raised by an arm of `exec` whose instruction has no meaning yet; no arm is left. Safe. -/
  | notModelled (mnemonic : String)
  /-- Raised by `command` for every command but RESET before the first RESET (`spec/70_reset_and_hazards.md` R291). Safe. -/
  | beforeReset
  /-- Raised by `command` for a LOAD that is not the first command after RESET (`spec/70_reset_and_hazards.md` R295). Safe. -/
  | loadOutsideLifecycle
  deriving DecidableEq, Repr

end Sys2Proof.Machine
end

