-- ==== Sys2Proof/Machine/Ops.lean ====
section
/-! DEFINITION. The named operations over memory, registers, the stack, the screen and the fault latch. Raising a hard failure
is `raise`, the one operation every instruction shares (`spec/60_exceptions.md` R246, R248). -/

namespace Sys2Proof.Machine

/-! ## Memory (`spec/20_memory.md`) -/

/-- The byte at an address; an address not listed reads 0 (R33, R36). -/
def Memory.read : Memory → Nat → Byte
  | [], _ => 0
  | (k, b) :: rest, a => if k = a then b else Memory.read rest a

/-- Put a byte other than 0 at its place in the list. -/
def Memory.insert : Memory → Nat → Byte → Memory
  | [], a, b => [(a, b)]
  | (k, c) :: rest, a, b =>
    if a < k then (a, b) :: (k, c) :: rest
    else if a = k then (a, b) :: rest
    else (k, c) :: Memory.insert rest a b

/-- Write one byte, keeping the canonical form: writing 0 removes the entry. -/
def Memory.write (m : Memory) (a : Nat) (b : Byte) : Memory :=
  if b = 0 then m.filter fun p => decide (p.1 ≠ a) else Memory.insert m a b

/-- The canonical form from an address on: strictly rising, inside the 4096 bytes, no byte 0 listed. -/
def Memory.wfFrom : Nat → Memory → Bool
  | _, [] => true
  | lo, (k, b) :: rest => decide (lo ≤ k) && decide (k < 4096) && decide (b ≠ 0) && Memory.wfFrom (k + 1) rest

/-- The canonical form. -/
def Memory.wf (m : Memory) : Bool := Memory.wfFrom 0 m

/-- `n` bytes from an address up, in ascending order (`spec/00_scope.md` R14). -/
def Memory.readBytes (m : Memory) : Nat → Nat → List Byte
  | _, 0 => []
  | a, n + 1 => m.read a :: Memory.readBytes m (a + 1) n

/-- Write a list of bytes from an address up, in ascending order (R14). -/
def Memory.writeBytes (m : Memory) : Nat → List Byte → Memory
  | _, [] => m
  | a, b :: bs => Memory.writeBytes (m.write a b) (a + 1) bs

/-- A data access of `n` bytes at `base` is in bounds (`spec/20_memory.md` R68); nothing is wrapped (R70). -/
abbrev InBounds (base : Word) (n : Nat) : Prop := n = 0 ∨ base.toNat + n - 1 ≤ 4095

/-! ## One setter per field -/

/-- `V[x] <- b` -/
def State.setV (s : State) (x : Reg) (b : Byte) : State := { s with v := s.v.set x b }

/-- All sixteen V registers at once (load-registers). -/
def State.setRegs (s : State) (v : Vector Byte 16) : State := { s with v := v }

/-- `I <- w` -/
def State.setIndex (s : State) (w : Word) : State := { s with index := w }

/-- `pc <- w` -/
def State.setPc (s : State) (w : Word) : State := { s with pc := w }

/-- `sp <- n` -/
def State.setSp (s : State) (n : Fin 17) : State := { s with sp := n }

/-- `stack[i] <- w` -/
def State.setStack (s : State) (i : Fin 16) (w : Word) : State := { s with stack := s.stack.set i w }

/-- `dt <- b` -/
def State.setDt (s : State) (b : Byte) : State := { s with dt := b }

/-- `st <- b` -/
def State.setSt (s : State) (b : Byte) : State := { s with st := b }

/-- All of memory. -/
def State.setMem (s : State) (m : Memory) : State := { s with mem := m }

/-- All of the framebuffer. -/
def State.setFb (s : State) (f : Screen) : State := { s with fb := f }

/-- `key[i] <- b` -/
def State.setKey (s : State) (i : Fin 16) (b : Bool) : State := { s with key := s.key.set i b }

/-- The fault latch. -/
def State.setFault (s : State) (f : Option FaultRecord) : State := { s with fault := f }

/-- The argument of the STEP in progress (the model's own field). -/
def State.setRndIn (s : State) (r : Option Byte) : State := { s with rndIn := r }

/-- One more free value has been drawn (the model's own field). -/
def State.countDraw (s : State) : State := { s with draws := s.draws + 1 }

/-- The pixel at column `x`, row `y` (`spec/00_scope.md` R13). -/
def State.pixel (s : State) (x : Fin 64) (y : Fin 32) : Bool := s.fb[y][x]

/-! ## Hard failures -/

/-- Set the fault latch; nothing else changes (`spec/60_exceptions.md` R246). -/
def State.latch (s : State) (c : Cause) (iaddr word : Word) : State := s.setFault (some ⟨c, iaddr, word⟩)

/-- A hard failure of the instruction `i`, raised in its own step: the latch gets the cause, the address the instruction was
fetched from (`pc` is that address plus 2) and its word; `pc` keeps its advance; nothing else changes (R246, R248; log entries
4 and 5). -/
def raise (c : Cause) (i : Instr) (s : State) : Host.Outcome State Fault Refusal :=
  .next (s.latch c (s.pc - 2) (encode i))

/-! ## Fetch (`spec/30_encoding.md` R92, R93) -/

/-- The instruction word at `pc`, high byte first; none when `pc` or its successor is outside memory. -/
def fetch (s : State) : Option Word :=
  if s.pc.toNat ≤ 4094 then some (wordOfBytes (s.mem.read s.pc.toNat) (s.mem.read (s.pc.toNat + 1))) else none

/-- The state of a failed fetch: only the latch is set, `pc` stays (R92, R248). -/
def fetchFailed (s : State) : State := s.latch .fetchOutOfBounds s.pc 0

/-- `pc <- pc + 2`, before the instruction's own effects (R93). -/
def advance (s : State) : State := s.setPc (s.pc + 2)

/-! ## The call stack (`spec/10_state.md` R29) -/

/-- `stack[sp] <- w; sp <- sp + 1`, or none when the stack is full. -/
def push (w : Word) (s : State) : Option State :=
  if h : s.sp.val < 16 then some ((s.setStack ⟨s.sp.val, h⟩ w).setSp ⟨s.sp.val + 1, by omega⟩) else none

/-- `sp <- sp - 1`, and the entry then at `sp`, or none when the stack is empty. The slot keeps its value. -/
def pop (s : State) : Option (Word × State) :=
  if h : 0 < s.sp.val then
    some (s.stack[s.sp.val - 1]'(by omega), s.setSp ⟨s.sp.val - 1, by omega⟩)
  else none

/-! ## The framebuffer (`spec/43_display.md` R201, R202) -/

/-- The framebuffer and whether a pixel has gone from on to off so far. -/
structure Canvas where
  fb : Screen
  hit : Bool
  deriving DecidableEq, Repr

/-- Draw one sprite bit that is 1 at column `x`, row `y`: dropped past column 63 or row 31, else the pixel is toggled, and a
pixel that was on is a collision. -/
def drawPixel (x y : Nat) (p : Canvas) : Canvas :=
  if h : x ≤ 63 ∧ y ≤ 31 then
    { fb := p.fb.set y ((p.fb[y]'(by omega)).set x (!((p.fb[y]'(by omega))[x]'(by omega))) (by omega)) (by omega)
      hit := p.hit || (p.fb[y]'(by omega))[x]'(by omega) }
  else p

/-- Bit `7 - c` of a sprite byte: bit 7 is the leftmost pixel (R202 (b), D11). -/
def spriteBit (row : Byte) (c : Nat) : Bool := row.getLsbD (7 - c)

/-- One sprite byte, from column `x0` on, for `c` = 0 to 7. -/
def drawRow (x0 y : Nat) (row : Byte) (p : Canvas) : Canvas :=
  (List.range 8).foldl (fun p c => if spriteBit row c then drawPixel (x0 + c) y p else p) p

/-- The sprite's bytes, row `r` on framebuffer row `y0 + r`. -/
def drawRows (x0 : Nat) : Nat → List Byte → Canvas → Canvas
  | _, [], p => p
  | y, row :: rows, p => drawRows x0 (y + 1) rows (drawRow x0 y row p)

/-- Every pixel off (R200). -/
def blankScreen : Screen := Vector.replicate 32 (Vector.replicate 64 false)

/-! ## Keys -/

/-- The lowest-indexed pressed key (`spec/44_keys_timers.md` R222). -/
def lowestKey (k : Vector Bool 16) : Option (Fin 16) := (List.finRange 16).find? fun i => k[i]

end Sys2Proof.Machine
end

