-- ==== Sys2Proof/Machine/Operands.lean ====
section
/-! DEFINITION. The operand forms (`spec/30_encoding.md` R97, `spec/42_index_memory.md` R186): a register, V0 implicitly, an
immediate as it is, a zero-extended address, and the bytes at `I`. Every read is on the state before the instruction (R165). -/

namespace Sys2Proof.Machine

/-- `V[x]` (R20). -/
def State.readV (s : State) (x : Reg) : Byte := s.v[x]

/-- The register VF, `V[15]` (R21). -/
abbrev VF : Reg := 15

/-- `zext_16(nnn)`: neither scaled nor reduced (R97). -/
def addrWord (nnn : Addr) : Word := nnn.setWidth 16

/-- `zext_16` of a byte (R12). -/
def byteWord (b : Byte) : Word := b.setWidth 16

/-- The random byte of this instruction: the STEP command's argument, or a free value (`spec/41_alu.md` R162; log entry 2). -/
def State.rnd (s : State) : Byte := s.rndIn.getD (Config.freeByte s.draws)

/-- `MemRead(I, n)`, none when out of bounds (`spec/20_memory.md` R68). -/
def loadAtIndex (n : Nat) (s : State) : Option (List Byte) :=
  if InBounds s.index n then some (s.mem.readBytes s.index.toNat n) else none

/-- `MemWrite(I, n, bytes)` as the state after it, none when out of bounds, and then nothing is written (R68). -/
def storeAtIndex (bytes : List Byte) (s : State) : Option State :=
  if InBounds s.index bytes.length then some (s.setMem (s.mem.writeBytes s.index.toNat bytes)) else none

/-- `[V[0], ..., V[x]]` (`spec/42_index_memory.md` R184). -/
def State.firstRegs (s : State) (x : Reg) : List Byte := s.v.toList.take (x.val + 1)

/-- `V[i] <- bytes[i]` for every listed `i`; the registers above are unchanged (R185). -/
def State.loadFirst (s : State) (bytes : List Byte) : State :=
  s.setRegs (Vector.ofFn fun r => (bytes[r.val]?).getD s.v[r])

/-- `I <- I + x + 1` (R184, R185). -/
def State.bumpIndex (s : State) (x : Reg) : State := s.setIndex (s.index + BitVec.ofNat 16 (x.val + 1))

/-- The three decimal digits of a byte, hundreds first (R183). -/
def bcdDigits (b : Byte) : List Byte :=
  [BitVec.ofNat 8 (b.toNat / 100), BitVec.ofNat 8 (b.toNat / 10 % 10), BitVec.ofNat 8 (b.toNat % 10)]

end Sys2Proof.Machine
end

