-- ==== Sys2Proof/Machine/Flags.lean ====
section
/-! DEFINITION. The arithmetic results and the values VF receives (`spec/10_state.md` R22, `spec/41_alu.md` R156 to R165). The
exact integer is computed first and narrowed at the end. -/

namespace Sys2Proof.Machine

/-- The flag value 1 or 0. -/
def flag (b : Bool) : Byte := if b then 1 else 0

/-- `(a + b) mod 256` (R163). -/
def addResult (a b : Byte) : Byte := BitVec.ofNat 8 ((a.toNat + b.toNat) % 256)

/-- The carry: 1 when `a + b >= 256` (R156). -/
def carryFlag (a b : Byte) : Byte := flag (decide (256 ≤ a.toNat + b.toNat))

/-- `(a - b) mod 256`: `a - b` when `a >= b`, `a - b + 256` otherwise (R163). -/
def subResult (a b : Byte) : Byte := BitVec.ofNat 8 ((a.toNat + 256 - b.toNat) % 256)

/-- The not-borrow flag of `a - b`: 1 when `a >= b` (R157). -/
def noBorrowFlag (a b : Byte) : Byte := flag (decide (b.toNat ≤ a.toNat))

/-- `b >> 1`, bit 7 of the result 0 (R158). -/
def shiftRightResult (b : Byte) : Byte := b >>> 1

/-- The bit shifted out to the right, bit 0 (R158). -/
def lowBitFlag (b : Byte) : Byte := flag (b.getLsbD 0)

/-- `(b << 1) mod 256`, bit 0 of the result 0 (R160). -/
def shiftLeftResult (b : Byte) : Byte := b <<< 1

/-- The bit shifted out to the left, bit 7 (R160). -/
def highBitFlag (b : Byte) : Byte := flag (b.getLsbD 7)

/-- The result to VX, then the flag to VF: with `x = 15` the flag is what VF holds (R165). -/
def State.setResultAndFlag (s : State) (x : Reg) (result f : Byte) : State := (s.setV x result).setV VF f

end Sys2Proof.Machine
end

