-- ==== Sys2Proof/Machine/Alu.lean ====
section
/-! DEFINITION. Register and ALU instructions (`spec/41_alu.md`). None of them can fail. -/

namespace Sys2Proof.Machine

/-- `set-immediate(X, imm)` (R150). -/
def execSetImm (x : Reg) (kk : Byte) (s : State) : Host.Outcome State Fault Refusal := .next (s.setV x kk)

/-- `add-immediate(X, imm)`: no flag (R151). -/
def execAddImm (x : Reg) (kk : Byte) (s : State) : Host.Outcome State Fault Refusal :=
  .next (s.setV x (addResult (s.readV x) kk))

/-- `move(X, Y)` (R152). -/
def execMove (x y : Reg) (s : State) : Host.Outcome State Fault Refusal := .next (s.setV x (s.readV y))

/-- `or(X, Y)`: no flag (R153). -/
def execOrRegs (x y : Reg) (s : State) : Host.Outcome State Fault Refusal := .next (s.setV x (s.readV x ||| s.readV y))

/-- `and(X, Y)`: no flag (R154). -/
def execAndRegs (x y : Reg) (s : State) : Host.Outcome State Fault Refusal := .next (s.setV x (s.readV x &&& s.readV y))

/-- `xor(X, Y)`: no flag (R155). -/
def execXorRegs (x y : Reg) (s : State) : Host.Outcome State Fault Refusal := .next (s.setV x (s.readV x ^^^ s.readV y))

/-- `add-regs(X, Y)` (R156). -/
def execAddRegs (x y : Reg) (s : State) : Host.Outcome State Fault Refusal :=
  .next (s.setResultAndFlag x (addResult (s.readV x) (s.readV y)) (carryFlag (s.readV x) (s.readV y)))

/-- `sub-regs(X, Y)` (R157). -/
def execSubRegs (x y : Reg) (s : State) : Host.Outcome State Fault Refusal :=
  .next (s.setResultAndFlag x (subResult (s.readV x) (s.readV y)) (noBorrowFlag (s.readV x) (s.readV y)))

/-- `shift-right(X, Y)`: the source is VY (R158). -/
def execShiftRight (x y : Reg) (s : State) : Host.Outcome State Fault Refusal :=
  .next (s.setResultAndFlag x (shiftRightResult (s.readV y)) (lowBitFlag (s.readV y)))

/-- `sub-regs-reverse(X, Y)` (R159). -/
def execSubRegsReverse (x y : Reg) (s : State) : Host.Outcome State Fault Refusal :=
  .next (s.setResultAndFlag x (subResult (s.readV y) (s.readV x)) (noBorrowFlag (s.readV y) (s.readV x)))

/-- `shift-left(X, Y)`: the source is VY (R160). -/
def execShiftLeft (x y : Reg) (s : State) : Host.Outcome State Fault Refusal :=
  .next (s.setResultAndFlag x (shiftLeftResult (s.readV y)) (highBitFlag (s.readV y)))

/-- `random-masked(X, mask)` (R162). -/
def execRandomMasked (x : Reg) (kk : Byte) (s : State) : Host.Outcome State Fault Refusal :=
  .next (s.setV x (s.rnd &&& kk)).countDraw

end Sys2Proof.Machine
end

