-- ==== Sys2Proof/Machine/Display.lean ====
section
/-! DEFINITION. Display instructions (`spec/43_display.md`). -/

namespace Sys2Proof.Machine

/-- `clear-screen` (R200). -/
def execClearScreen (s : State) : Host.Outcome State Fault Refusal := .next (s.setFb blankScreen)

/-- `draw-sprite(X, Y, height)` (R201): the coordinates are read before VF is written; all `n` bytes are checked before
anything changes. -/
def execDrawSprite (x y : Reg) (n : Height) (s : State) : Host.Outcome State Fault Refusal :=
  match loadAtIndex n.val s with
  | some rows =>
    let p := drawRows ((s.readV x).toNat % 64) ((s.readV y).toNat % 32) rows ⟨s.fb, false⟩
    .next ((s.setFb p.fb).setV VF (flag p.hit))
  | none => raise .memoryOutOfBounds (.drawSprite x y n) s

end Sys2Proof.Machine
end

