-- ==== Sys2Proof/Machine/Flow.lean ====
section
/-! DEFINITION. Control transfer (`spec/40_flow.md`). At entry `pc` is already the instruction's address plus 2 (R15). -/

namespace Sys2Proof.Machine

/-- Skip the next instruction when the condition holds: `pc <- pc + 2` (R134). -/
def skipIf (c : Bool) (s : State) : Host.Outcome State Fault Refusal :=
  .next (if c then s.setPc (s.pc + 2) else s)

/-- `return` (R131). -/
def execRet (s : State) : Host.Outcome State Fault Refusal :=
  match pop s with
  | some (w, t) => .next (t.setPc w)
  | none => raise .stackUnderflow .ret s

/-- `jump(addr)` (R132). -/
def execJump (nnn : Addr) (s : State) : Host.Outcome State Fault Refusal := .next (s.setPc (addrWord nnn))

/-- `call(addr)` (R133). -/
def execCall (nnn : Addr) (s : State) : Host.Outcome State Fault Refusal :=
  match push s.pc s with
  | some t => .next (t.setPc (addrWord nnn))
  | none => raise .stackOverflow (.call nnn) s

/-- `skip-if-eq-immediate(X, imm)` (R134). -/
def execSkipEqImm (x : Reg) (kk : Byte) (s : State) : Host.Outcome State Fault Refusal :=
  skipIf (decide (s.readV x = kk)) s

/-- `skip-if-neq-immediate(X, imm)` (R135). -/
def execSkipNeqImm (x : Reg) (kk : Byte) (s : State) : Host.Outcome State Fault Refusal :=
  skipIf (decide (s.readV x ≠ kk)) s

/-- `skip-if-eq-reg(X, Y)` (R136). -/
def execSkipEqReg (x y : Reg) (s : State) : Host.Outcome State Fault Refusal :=
  skipIf (decide (s.readV x = s.readV y)) s

/-- `skip-if-neq-reg(X, Y)` (R137). -/
def execSkipNeqReg (x y : Reg) (s : State) : Host.Outcome State Fault Refusal :=
  skipIf (decide (s.readV x ≠ s.readV y)) s

/-- `jump-with-offset(addr)`: always V0, the sum not reduced (R138). -/
def execJumpOffset (nnn : Addr) (s : State) : Host.Outcome State Fault Refusal :=
  .next (s.setPc (addrWord nnn + byteWord (s.readV 0)))

end Sys2Proof.Machine
end

