-- ==== Sys2Proof/Machine/IndexMemory.lean ====
section
/-! DEFINITION. Index register and memory instructions (`spec/42_index_memory.md`). -/

namespace Sys2Proof.Machine

/-- `set-index(addr)` (R180). -/
def execSetIndex (nnn : Addr) (s : State) : Host.Outcome State Fault Refusal := .next (s.setIndex (addrWord nnn))

/-- `add-to-index(X)`: modulo 65536, no flag (R181). -/
def execAddIndex (x : Reg) (s : State) : Host.Outcome State Fault Refusal :=
  .next (s.setIndex (s.index + byteWord (s.readV x)))

/-- `sprite-address(X)` (R182). For VX above 15 the spec leaves `I` open: a free value (DESIGN CHOICE, log entry 3). -/
def execSpriteAddress (x : Reg) (s : State) : Host.Outcome State Fault Refusal :=
  if (s.readV x).toNat ≤ 15 then .next (s.setIndex (BitVec.ofNat 16 ((s.readV x).toNat * 5)))
  else .next (s.setIndex (Config.freeIndex s.draws)).countDraw

/-- `store-bcd(X)` (R183). -/
def execStoreBcd (x : Reg) (s : State) : Host.Outcome State Fault Refusal :=
  match storeAtIndex (bcdDigits (s.readV x)) s with
  | some t => .next t
  | none => raise .memoryOutOfBounds (.storeBcd x) s

/-- `store-registers(X)` (R184). -/
def execStoreRegs (x : Reg) (s : State) : Host.Outcome State Fault Refusal :=
  match storeAtIndex (s.firstRegs x) s with
  | some t => .next (t.bumpIndex x)
  | none => raise .memoryOutOfBounds (.storeRegs x) s

/-- `load-registers(X)` (R185). -/
def execLoadRegs (x : Reg) (s : State) : Host.Outcome State Fault Refusal :=
  match loadAtIndex (x.val + 1) s with
  | some bytes => .next ((s.loadFirst bytes).bumpIndex x)
  | none => raise .memoryOutOfBounds (.loadRegs x) s

end Sys2Proof.Machine
end

