-- ==== Sys2Proof/Machine/KeysTimers.lean ====
section
/-! DEFINITION. Key and timer instructions (`spec/44_keys_timers.md`). -/

namespace Sys2Proof.Machine

/-- `skip-if-key-down(X)`: VX above 15 is a failure, never masked (R220). -/
def execSkipKeyDown (x : Reg) (s : State) : Host.Outcome State Fault Refusal :=
  if h : (s.readV x).toNat < 16 then skipIf s.key[(s.readV x).toNat] s
  else raise .keyIndexOutOfRange (.skipKeyDown x) s

/-- `skip-if-key-up(X)` (R221). -/
def execSkipKeyUp (x : Reg) (s : State) : Host.Outcome State Fault Refusal :=
  if h : (s.readV x).toNat < 16 then skipIf (!s.key[(s.readV x).toNat]) s
  else raise .keyIndexOutOfRange (.skipKeyUp x) s

/-- `wait-for-key(X)`: no key down rewinds `pc` to the instruction itself (R222). -/
def execWaitKey (x : Reg) (s : State) : Host.Outcome State Fault Refusal :=
  match lowestKey s.key with
  | none => .next (s.setPc (s.pc - 2))
  | some i => .next (s.setV x (BitVec.ofNat 8 i.val))

/-- `get-delay-timer(X)` (R223). -/
def execGetDelay (x : Reg) (s : State) : Host.Outcome State Fault Refusal := .next (s.setV x s.dt)

/-- `set-delay-timer(X)` (R224). -/
def execSetDelay (x : Reg) (s : State) : Host.Outcome State Fault Refusal := .next (s.setDt (s.readV x))

/-- `set-sound-timer(X)` (R225). -/
def execSetSound (x : Reg) (s : State) : Host.Outcome State Fault Refusal := .next (s.setSt (s.readV x))

end Sys2Proof.Machine
end

