-- ==== Sys2Proof/Machine/Dispatch.lean ====
section
/-! DEFINITION. The meaning of each instruction, one arm per constructor (`spec/30_encoding.md` R99). -/

namespace Sys2Proof.Machine

/-- Step 4 of STEP: `pc` already holds the instruction's address plus 2 (`spec/00_scope.md` R15). -/
def exec (i : Instr) (s : State) : Host.Outcome State Fault Refusal :=
  match i with
  | .clearScreen => Sys2Proof.Machine.execClearScreen s
  | .ret => Sys2Proof.Machine.execRet s
  | .jump nnn => Sys2Proof.Machine.execJump nnn s
  | .call nnn => Sys2Proof.Machine.execCall nnn s
  | .skipEqImm x kk => Sys2Proof.Machine.execSkipEqImm x kk s
  | .skipNeqImm x kk => Sys2Proof.Machine.execSkipNeqImm x kk s
  | .skipEqReg x y => Sys2Proof.Machine.execSkipEqReg x y s
  | .setImm x kk => Sys2Proof.Machine.execSetImm x kk s
  | .addImm x kk => Sys2Proof.Machine.execAddImm x kk s
  | .move x y => Sys2Proof.Machine.execMove x y s
  | .orRegs x y => Sys2Proof.Machine.execOrRegs x y s
  | .andRegs x y => Sys2Proof.Machine.execAndRegs x y s
  | .xorRegs x y => Sys2Proof.Machine.execXorRegs x y s
  | .addRegs x y => Sys2Proof.Machine.execAddRegs x y s
  | .subRegs x y => Sys2Proof.Machine.execSubRegs x y s
  | .shiftRight x y => Sys2Proof.Machine.execShiftRight x y s
  | .subRegsReverse x y => Sys2Proof.Machine.execSubRegsReverse x y s
  | .shiftLeft x y => Sys2Proof.Machine.execShiftLeft x y s
  | .skipNeqReg x y => Sys2Proof.Machine.execSkipNeqReg x y s
  | .setIndex nnn => Sys2Proof.Machine.execSetIndex nnn s
  | .jumpOffset nnn => Sys2Proof.Machine.execJumpOffset nnn s
  | .randomMasked x kk => Sys2Proof.Machine.execRandomMasked x kk s
  | .drawSprite x y n => Sys2Proof.Machine.execDrawSprite x y n s
  | .skipKeyDown x => Sys2Proof.Machine.execSkipKeyDown x s
  | .skipKeyUp x => Sys2Proof.Machine.execSkipKeyUp x s
  | .getDelay x => Sys2Proof.Machine.execGetDelay x s
  | .waitKey x => Sys2Proof.Machine.execWaitKey x s
  | .setDelay x => Sys2Proof.Machine.execSetDelay x s
  | .setSound x => Sys2Proof.Machine.execSetSound x s
  | .addIndex x => Sys2Proof.Machine.execAddIndex x s
  | .spriteAddress x => Sys2Proof.Machine.execSpriteAddress x s
  | .storeBcd x => Sys2Proof.Machine.execStoreBcd x s
  | .storeRegs x => Sys2Proof.Machine.execStoreRegs x s
  | .loadRegs x => Sys2Proof.Machine.execLoadRegs x s

end Sys2Proof.Machine
end

