-- ==== Sys2Proof/Machine/Cycle.lean ====
section
/-! DEFINITION. The cycle of the STEP command (`spec/30_encoding.md` R90 to R93, R103). -/

namespace Sys2Proof.Machine

/-- Fetch, advance, decode, dispatch, in that order (R90). A set latch stops the machine (R91); a failed fetch sets the latch
and leaves `pc` (R92); an UnknownOpcode word only advances `pc` (R103). -/
def cycle (s : State) : Host.Outcome State Fault Refusal :=
  match s.fault with
  | some f => .fault (.latched f.cause)
  | none =>
    match fetch s with
    | none => .next (fetchFailed s)
    | some op =>
      match decodeWord op with
      | none => .next (advance s)
      | some i => exec i (advance s)

/-- `s` with an instruction of `nbits` bits `w` (numbered as the opcode table numbers them) where the next fetch reads it. The
fetch needs a clear latch (R91) and a `pc` of at most 4094 (R92), so those are set too where they are not so. -/
def placeAtPc (s : State) (nbits w : Nat) : State :=
  let op : Word := BitVec.ofNat 16 (w % 2 ^ nbits)
  let a : Word := if s.pc.toNat ≤ 4094 then s.pc else Config.entry
  ((s.setFault none).setPc a).setMem (s.mem.writeBytes a.toNat [highByte op, lowByte op])

end Sys2Proof.Machine
end

