-- ==== Sys2Proof/Machine/Step.lean ====
section
/-! DEFINITION. One step of the machine: the STEP command (`spec/30_encoding.md` R90). -/

namespace Sys2Proof.Machine

/-- The STEP command; its random byte is the state's (log entry 2). -/
def step (s : State) : Host.Outcome State Fault Refusal := Sys2Proof.Machine.cycle s

/-- `s` with an instruction where `step` fetches its next one (log entry 1). -/
def State.withFetchWord (s : State) (nbits w : Nat) : State := Sys2Proof.Machine.placeAtPc s nbits w

end Sys2Proof.Machine
end

