-- ==== Sys2Proof/Machine/Commands.lean ====
section
/-! DEFINITION. The five commands of the host, their results and the lifecycle (`spec/00_scope.md` R8 to R11,
`spec/60_exceptions.md` R246 to R261, `spec/70_reset_and_hazards.md` R290 to R297). -/

namespace Sys2Proof.Machine

/-- The numeric code of a cause (`spec/60_exceptions.md` R241). -/
def Cause.code : Cause → Nat
  | .fetchOutOfBounds => 1
  | .stackOverflow => 2
  | .stackUnderflow => 3
  | .keyIndexOutOfRange => 4
  | .invalidKeyIndex => 5
  | .outOfMemory => 6
  | .memoryOutOfBounds => 7

/-- What a command returns (R9). -/
inductive Result where
  /-- `Ok` of RESET, LOAD, SETKEY and TICK -/
  | ok
  /-- `Ok(fb_touched)` of STEP -/
  | stepped (fbTouched : Bool)
  /-- `Unknown(word, iaddr)` of STEP -/
  | unknown (word iaddr : Word)
  /-- `Fault(cause)` -/
  | fault (cause : Cause)
  deriving DecidableEq, Repr

/-- The commands (R8). -/
inductive Command where
  | reset
  | load (bytes : List Byte)
  | setKey (index : Nat) (pressed : Bool)
  | step (rnd : Byte)
  | tick
  deriving DecidableEq, Repr

/-- The 80 glyph bytes, a parameter of LOAD (`spec/20_memory.md` R64; log entry 9). -/
abbrev Font := Vector Byte 80

/-- Glyphs 0 to 7 of the default font. -/
def glyphsLow : List Byte := [
  0xF0, 0x90, 0x90, 0x90, 0xF0, 0x20, 0x60, 0x20, 0x20, 0x70, 0xF0, 0x10, 0xF0, 0x80, 0xF0, 0xF0, 0x10, 0xF0, 0x10, 0xF0,
  0x90, 0x90, 0xF0, 0x10, 0x10, 0xF0, 0x80, 0xF0, 0x10, 0xF0, 0xF0, 0x80, 0xF0, 0x90, 0xF0, 0xF0, 0x10, 0x20, 0x40, 0x40]

/-- Glyphs 8 to F of the default font. -/
def glyphsHigh : List Byte := [
  0xF0, 0x90, 0xF0, 0x90, 0xF0, 0xF0, 0x90, 0xF0, 0x10, 0xF0, 0xF0, 0x90, 0xF0, 0x90, 0x90, 0xE0, 0x90, 0xE0, 0x90, 0xE0,
  0xF0, 0x80, 0x80, 0x80, 0xF0, 0xE0, 0x90, 0x90, 0x90, 0xE0, 0xF0, 0x80, 0xF0, 0x80, 0xF0, 0xF0, 0x80, 0xF0, 0x80, 0x80]

/-- The default FONT of R64 (D16). -/
def defaultFont : Font := ⟨(glyphsLow ++ glyphsHigh).toArray, by decide⟩

/-! ## The commands on the machine's state -/

/-- RESET: the reset state, from every state, and it cannot fail (R290). The count of free values drawn, the model's own,
goes on, so that a later run gets fresh ones (log entry 3). -/
def resetCommand (s : State) : State × Result := ({ State.reset with draws := s.draws }, .ok)

/-- `LOAD(bytes)` (R293). Its answer with the latch set is R293's; `command` refuses such a LOAD first (log entry 13). -/
def loadCommand (font : Font) (bytes : List Byte) (s : State) : State × Result :=
  match s.fault with
  | some f => (s, .fault f.cause)
  | none =>
    if Config.maxProgram < bytes.length then (s.latch .outOfMemory 0 0, .fault .outOfMemory)
    else (s.setMem ((s.mem.writeBytes Config.entry.toNat bytes).writeBytes 0 font.toList), .ok)

/-- `SETKEY(index, pressed)` (R261). -/
def setKeyCommand (index : Nat) (pressed : Bool) (s : State) : State × Result :=
  match s.fault with
  | some f => (s, .fault f.cause)
  | none =>
    if h : index < 16 then (s.setKey ⟨index, h⟩ pressed, .ok)
    else (s.latch .invalidKeyIndex 0 0, .fault .invalidKeyIndex)

/-- One less, never below 0 (R258). -/
def countDown (b : Byte) : Byte := if b = 0 then 0 else b - 1

/-- `TICK` (R258). -/
def tickCommand (s : State) : State × Result :=
  match s.fault with
  | some f => (s, .fault f.cause)
  | none => ((s.setDt (countDown s.dt)).setSt (countDown s.st), .ok)

/-- The two framebuffer instructions (`spec/43_display.md` R204). -/
def touchesFb : Instr → Bool
  | .clearScreen => true
  | .drawSprite _ _ _ => true
  | _ => false

/-- The result of a STEP from `s` (its latch clear) that led to `t` (R9): the cause if it failed, else what the fetched word
was. -/
def stepResult (s t : State) : Result :=
  match t.fault with
  | some f => .fault f.cause
  | none =>
    match fetch s with
    | none => .stepped false
    | some op =>
      match decodeWord op with
      | none => .unknown op s.pc
      | some i => .stepped (touchesFb i)

/-- `STEP(rnd)`: one step with the random byte given (R90, R162); with the latch set, nothing and the latched cause (R91). -/
def stepCommand (rnd : Byte) (s : State) : Host.Outcome (State × Result) Fault Refusal :=
  match step (s.setRndIn (some rnd)) with
  | .next t => .next (t.setRndIn none, stepResult s t)
  | .fault (.latched c) => .next (s, .fault c)
  | .refused r => .refused r

/-! ## The host's reads (R10, R260, R262, R265): the fields of State, and -/

/-- `sound_on = (st != 0)` (R260). -/
def State.soundOn (s : State) : Bool := decide (s.st ≠ 0)

/-! ## The lifecycle -/

/-- Where a block stands in its lifecycle (`spec/70_reset_and_hazards.md` R291, R295, R296). -/
inductive Lifecycle where
  /-- before the first RESET -/
  | unreset
  /-- right after RESET, no other command yet -/
  | fresh
  /-- after any other command -/
  | running
  deriving DecidableEq, Repr

/-- The machine with its place in the lifecycle. -/
structure Block where
  lifecycle : Lifecycle
  machine : State
  deriving DecidableEq, Repr

/-- After a command other than RESET. -/
def answered (p : State × Result) : Host.Outcome (Block × Result) Fault Refusal := .next (⟨.running, p.1⟩, p.2)

/-- One command of the host. Before the first RESET only RESET has a meaning (R291); LOAD has one only right after RESET
(R295; log entry 7). A LOAD out of place with the latch set falls under two rules: R9, R247 and R293 return the latched cause,
R295 refuses it. DESIGN CHOICE (log entry 13): it is refused, so no run of commands comes to `loadCommand` with the latch set. -/
def command (font : Font) (c : Command) (b : Block) : Host.Outcome (Block × Result) Fault Refusal :=
  match c, b.lifecycle with
  | .reset, _ => .next (⟨.fresh, (resetCommand b.machine).1⟩, (resetCommand b.machine).2)
  | _, .unreset => .refused .beforeReset
  | .load bytes, .fresh => answered (loadCommand font bytes b.machine)
  | .load _, .running => .refused .loadOutsideLifecycle
  | .setKey index pressed, _ => answered (setKeyCommand index pressed b.machine)
  | .tick, _ => answered (tickCommand b.machine)
  | .step rnd, _ =>
    match stepCommand rnd b.machine with
    | .next p => answered p
    | .fault f => .fault f
    | .refused r => .refused r

/-- A run of commands (`spec/60_exceptions.md` R267): the block after the last one. -/
def commands (font : Font) : List Command → Block → Host.Outcome Block Fault Refusal
  | [], b => .next b
  | c :: cs, b =>
    match command font c b with
    | .next p => commands font cs p.1
    | .fault f => .fault f
    | .refused r => .refused r

end Sys2Proof.Machine
end

