-- ==== Sys2Proof/Safety.lean ====
section
/-! DEFINITION. What claims are stated in: the invariant of `spec/10_state.md` R38, when a STEP fails (`spec/60_exceptions.md`
R241), parked states (R268), safe runs, and what an instruction may change. -/

namespace Sys2Proof.Machine

/-- The invariant of R38, with memory in its canonical form: `pc` at most 4350 (R27), every live stack entry in 2 to 4096. The
bounds of the other fields are their types. -/
def State.Inv (s : State) : Prop :=
  s.mem.wf = true ∧ s.pc.toNat ≤ 4350 ∧
    ∀ i : Fin 16, i.val < s.sp.val → 2 ≤ s.stack[i].toNat ∧ s.stack[i].toNat ≤ 4096

/-- The failure that a fetched instruction raises (R241, R250): its cause, from the state the instruction starts in. -/
def instrFailure (i : Instr) (s : State) : Option Cause :=
  match i with
  | .ret => if s.sp = 0 then some .stackUnderflow else none
  | .call _ => if s.sp = 16 then some .stackOverflow else none
  | .skipKeyDown x | .skipKeyUp x => if 15 < s.v[x].toNat then some .keyIndexOutOfRange else none
  | .drawSprite _ _ n => if 0 < n.val ∧ 4095 < s.index.toNat + n.val - 1 then some .memoryOutOfBounds else none
  | .storeBcd _ => if 4095 < s.index.toNat + 2 then some .memoryOutOfBounds else none
  | .storeRegs x | .loadRegs x => if 4095 < s.index.toNat + x.val then some .memoryOutOfBounds else none
  | _ => none

/-- What a STEP latches, from the state before it: the fetch is checked first; an unknown word fails nothing; an instruction
has at most one failure, recorded with its address and word (R241, R250). -/
def stepFailure (s : State) : Option FaultRecord :=
  if 4094 < s.pc.toNat then some ⟨.fetchOutOfBounds, s.pc, 0⟩
  else
    let op := wordOfBytes (s.mem.read s.pc.toNat) (s.mem.read (s.pc.toNat + 1))
    match decodeWord op with
    | none => none
    | some i => (instrFailure i s).map fun c => ⟨c, s.pc, op⟩

/-- Parked at `h`: the next instruction is a jump to its own address (R268). -/
def State.ParkedAt (s : State) (h : Addr) : Prop :=
  h.toNat ≤ 4094 ∧ s.fault = none ∧ s.pc = h.setWidth 16 ∧
    wordOfBytes (s.mem.read h.toNat) (s.mem.read (h.toNat + 1)) = 0x1000 ||| h.setWidth 16

/-- `k` more steps go through and none of them sets the latch. -/
def State.SafeFor : Nat → State → Prop
  | 0, s => s.fault = none
  | k + 1, s => s.fault = none ∧ ∃ t, step s = .next t ∧ State.SafeFor k t

/-- What an instruction may change: the listed registers, the marked fields, the bytes of `stored` (first address, length).
Everything else is unchanged. -/
structure MayChange where
  regs : List Reg := []
  index : Bool := false
  pc : Bool := false
  sp : Bool := false
  stackSlot : Option Nat := none
  dt : Bool := false
  st : Bool := false
  fb : Bool := false
  fault : Bool := false
  draws : Bool := false
  stored : Nat × Nat := (0, 0)
  deriving DecidableEq, Repr

/-- `t` differs from `s` in nothing but what `m` lists. No instruction may change a key flag or the argument of STEP. -/
def Unchanged (m : MayChange) (s t : State) : Prop :=
  (∀ r : Reg, r ∉ m.regs → t.v[r] = s.v[r]) ∧
  (m.index = false → t.index = s.index) ∧
  (m.pc = false → t.pc = s.pc) ∧
  (m.sp = false → t.sp = s.sp) ∧
  (∀ i : Fin 16, m.stackSlot ≠ some i.val → t.stack[i] = s.stack[i]) ∧
  (m.dt = false → t.dt = s.dt) ∧
  (m.st = false → t.st = s.st) ∧
  (m.fb = false → ∀ (x : Fin 64) (y : Fin 32), t.pixel x y = s.pixel x y) ∧
  (m.fault = false → t.fault = s.fault) ∧
  (m.draws = false → t.draws = s.draws) ∧
  (∀ a : Nat, ¬ (m.stored.1 ≤ a ∧ a < m.stored.1 + m.stored.2) → t.mem.read a = s.mem.read a) ∧
  t.key = s.key ∧ t.rndIn = s.rndIn

/-- What each instruction may write (`spec/10_state.md` R37): its destination registers, VF for the six flag writers, and the
one piece of state its rule names; where it can fail, the latch. -/
def mayChange (i : Instr) (s : State) : MayChange :=
  match i with
  | .clearScreen => { fb := true }
  | .ret => { pc := true, sp := true, fault := true }
  | .jump _ | .jumpOffset _ => { pc := true }
  | .call _ => { pc := true, sp := true, stackSlot := some s.sp.val, fault := true }
  | .skipEqImm _ _ | .skipNeqImm _ _ | .skipEqReg _ _ | .skipNeqReg _ _ => { pc := true }
  | .setImm x _ | .addImm x _ | .move x _ | .orRegs x _ | .andRegs x _ | .xorRegs x _ | .getDelay x => { regs := [x] }
  | .addRegs x _ | .subRegs x _ | .shiftRight x _ | .subRegsReverse x _ | .shiftLeft x _ => { regs := [x, 15] }
  | .randomMasked x _ => { regs := [x], draws := true }
  | .setIndex _ | .addIndex _ => { index := true }
  | .spriteAddress _ => { index := true, draws := true }
  | .drawSprite _ _ _ => { regs := [15], fb := true, fault := true }
  | .skipKeyDown _ | .skipKeyUp _ => { pc := true, fault := true }
  | .waitKey x => { regs := [x], pc := true }
  | .setDelay _ => { dt := true }
  | .setSound _ => { st := true }
  | .storeBcd _ => { stored := (s.index.toNat, 3), fault := true }
  | .storeRegs x => { index := true, stored := (s.index.toNat, x.val + 1), fault := true }
  | .loadRegs x => { regs := (List.finRange 16).filter (· ≤ x), index := true, fault := true }

end Sys2Proof.Machine
end

