-- ==== Sys2Proof/Certificates/Slice0/Obligations.lean ====
section
/-! DEFINITION. The statements for the provers, from the numbered rules of the spec. At an instruction's start `pc` already
holds its address plus 2 (`spec/00_scope.md` R15), so `s.pc` below is that address. -/

namespace Sys2Proof.Claims

open Sys2Proof.Machine

/-- The word `fnnn`, written as R98 writes it. -/
def wordA (fam : Nat) (nnn : Addr) : Word := BitVec.ofNat 16 (fam * 0x1000 + nnn.toNat)

/-- The word `fxkk`. -/
def wordXK (fam : Nat) (x : Reg) (kk : Nat) : Word := BitVec.ofNat 16 (fam * 0x1000 + x.val * 0x100 + kk)

/-- The word `fxyn`. -/
def wordXYN (fam : Nat) (x y : Reg) (n : Nat) : Word :=
  BitVec.ofNat 16 (fam * 0x1000 + x.val * 0x100 + y.val * 0x10 + n)

/-- The word is the encoding of the instruction (R98). -/
def Encodes (w : Word) (i : Instr) : Prop := decodeWord w = some i

/-- The two bytes at `a` hold the word, high byte first (R65). -/
def Holds (s : State) (a : Nat) (w : Word) : Prop :=
  w.toNat = (s.mem.read a).toNat * 256 + (s.mem.read (a + 1)).toNat

/-- `s` with the latch set by the instruction of word `w` and nothing else changed (R246, R248). -/
def latchedBy (s : State) (c : Cause) (w : Word) : State := { s with fault := some ⟨c, s.pc - 2, w⟩ }

/-- The instruction completes, leaves `n` in V[x], and changes nothing else. -/
def SetsReg (i : Instr) (s : State) (x : Reg) (n : Nat) : Prop :=
  ∃ t, exec i s = .next t ∧ t.v[x].toNat = n ∧ Unchanged { regs := [x] } s t

/-- The instruction completes, leaves `n` in V[x] and `f` in VF, the flag winning when `x` is 15, and changes nothing else. -/
def SetsRegAndFlag (i : Instr) (s : State) (x : Reg) (n f : Nat) : Prop :=
  ∃ t, exec i s = .next t ∧ (x ≠ 15 → t.v[x].toNat = n) ∧ t.v[(15 : Reg)].toNat = f ∧ Unchanged { regs := [x, 15] } s t

/-- The instruction completes, moves `pc` by 2 exactly when `c` holds, and changes nothing else. -/
def SkipsWhen (i : Instr) (s : State) (c : Prop) : Prop :=
  ∃ t, exec i s = .next t ∧ (c → t.pc = s.pc + 2) ∧ (¬ c → t.pc = s.pc) ∧ Unchanged { pc := true } s t

/-- The sprite of `draw-sprite(x, y, n)` has a 1 bit that lands on column `i`, row `j` (R201, R202). -/
def SpriteLit (s : State) (x y : Reg) (n : Height) (i : Fin 64) (j : Fin 32) : Prop :=
  ∃ r c : Nat, r < n.val ∧ c < 8 ∧ i.val = s.v[x].toNat % 64 + c ∧ j.val = s.v[y].toNat % 32 + r ∧
    (s.mem.read (s.index.toNat + r)).getLsbD (7 - c) = true

/-- One TICK's state. -/
def ticked (s : State) : State := (tickCommand s).1

/-- The words that are no instruction, family by family, as R104 lists them. -/
def Unlisted (op : Word) : Prop :=
  let w := op.toNat
  let f := w / 0x1000
  let n := w % 16
  let kk := w % 256
  (f = 0x0 ∧ w ≠ 0x00E0 ∧ w ≠ 0x00EE) ∨ (f = 0x5 ∧ n ≠ 0) ∨
  (f = 0x8 ∧ n ∈ [0x8, 0x9, 0xA, 0xB, 0xC, 0xD, 0xF]) ∨ (f = 0x9 ∧ n ≠ 0) ∨
  (f = 0xE ∧ kk ∉ [0x9E, 0xA1]) ∨ (f = 0xF ∧ kk ∉ [0x07, 0x0A, 0x15, 0x18, 0x1E, 0x29, 0x33, 0x55, 0x65])

/-- A block keeps the invariant: before the first RESET nothing is said of its state (R36). -/
def BlockInv (b : Block) : Prop := b.lifecycle = .unreset ∨ b.machine.Inv

end Sys2Proof.Claims

open Sys2Proof Sys2Proof.Machine Sys2Proof.Claims

/-! ## The cycle, fetch and decoding -/

/-- When the bytes at `pc` decode to an instruction, `step` moves `pc` past them and is `exec` of it (R93). -/
def Obligations.StepRunsTheDecodedInstruction : Prop :=
  ∀ (s : State) (i : Instr) (rest : List Byte), s.fault = none → s.pc.toNat ≤ 4094 →
    decode (s.mem.readBytes s.pc.toNat 2) = .ok (i, rest) →
    rest = [] ∧ i.wellFormed = true ∧ (s.pc + 2).toNat = s.pc.toNat + 2 ∧ (s.pc + 2).toNat ≤ 4096 ∧
      step s = exec i { s with pc := s.pc + 2 }

/-- A fetch at a `pc` above 4094 sets the latch with `iaddr = pc` and `word = 0`; nothing else changes; below, no fetch fails
(R69, R242). That every good fetch leads to a next state rests, for `sprite-address` with VX above 15, on the model's choice
(log entry 3). -/
def Obligations.FetchFailsExactlyAbove4094 : Prop :=
  ∀ s : State, s.fault = none →
    (4094 < s.pc.toNat → step s = .next { s with fault := some ⟨.fetchOutOfBounds, s.pc, 0⟩ }) ∧
    (s.pc.toNat ≤ 4094 → ∃ t, step s = .next t ∧ ∀ f, t.fault = some f → f.cause ≠ .fetchOutOfBounds)

/-- An unknown word is a no-operation that is reported (R103). `rndIn` is the model's own field (log entry 2), here and below. -/
def Obligations.UnknownWordOnlyAdvancesAndIsReported : Prop :=
  ∀ (s : State) (op : Word) (rnd : Byte), s.fault = none → s.pc.toNat ≤ 4094 → Holds s s.pc.toNat op →
    decodeWord op = none →
    step s = .next { s with pc := s.pc + 2 } ∧
    stepCommand rnd s = .next ({ s with pc := s.pc + 2, rndIn := none }, .unknown op s.pc)

/-- The words that decode to nothing are those R104 lists. -/
def Obligations.UnknownWordsAreTheListedOnes : Prop := ∀ op : Word, decodeWord op = none ↔ Unlisted op

/-- A word is an instruction exactly when it meets that instruction's mask and match, and no two rows overlap (R98). -/
def Obligations.OpcodeMapIsTheDecoder : Prop :=
  opcodeRows.length = 34 ∧
  (∀ (op : Word) (r : OpcodeRow), r ∈ opcodeRows →
    (op &&& r.mask = r.pattern ↔ ∃ i, decodeWord op = some i ∧ i.mnemonic = r.mnemonic)) ∧
  (∀ (op : Word) (i : Instr), decodeWord op = some i → ∃ r ∈ opcodeRows, r.mnemonic = i.mnemonic) ∧
  opcodeRows.Pairwise fun r r' => ∀ op : Word, ¬ (op &&& r.mask = r.pattern ∧ op &&& r'.mask = r'.pattern)

/-- Decoding an instruction's word, or its bytes with any bytes after them, gives it back, with every operand at every value. -/
def Obligations.DecodeOfEncode : Prop :=
  ∀ i : Instr, i.wellFormed = true ∧ decodeTableWord 16 (encode i).toNat = some i ∧
    ∀ rest : List Byte, decode (encodeBytes i ++ rest) = .ok (i, rest)

/-- A word that decodes is the encoding of what it decodes to: no bit of it is ignored. -/
def Obligations.EncodeOfDecode : Prop := ∀ (op : Word) (i : Instr), decodeWord op = some i → encode i = op

/-- A few words of the spec's own vectors decode to what they stand for. -/
def Obligations.SomeWordsDecode : Prop :=
  Encodes 0x00E0 .clearScreen ∧ Encodes 0x10E0 (.jump 0x0E0) ∧ Encodes 0x5120 (.skipEqReg 1 2) ∧
  Encodes 0x8127 (.subRegsReverse 1 2) ∧ Encodes 0xBABC (.jumpOffset 0xABC) ∧ Encodes 0xDAB0 (.drawSprite 0xA 0xB 0) ∧
  Encodes 0xE1A1 (.skipKeyUp 1) ∧ Encodes 0xFF65 (.loadRegs 0xF) ∧ decodeWord 0x5121 = none ∧ decodeWord 0x0000 = none

/-! ## Control transfer -/

/-- `return` (R131). -/
def Obligations.ReturnPopsTheStack : Prop :=
  Encodes 0x00EE .ret ∧ ∀ s : State,
    (s.sp = 0 → exec .ret s = .next (latchedBy s .stackUnderflow 0x00EE)) ∧
    (∀ k : Fin 16, s.sp.val = k.val + 1 →
      ∃ t, exec .ret s = .next t ∧ t.sp.val = k.val ∧ t.pc = s.stack[k] ∧ Unchanged { sp := true, pc := true } s t)

/-- `jump(addr)` (R132). -/
def Obligations.JumpSetsPc : Prop :=
  ∀ nnn : Addr, Encodes (wordA 0x1 nnn) (.jump nnn) ∧ ∀ s : State,
    ∃ t, exec (.jump nnn) s = .next t ∧ t.pc.toNat = nnn.toNat ∧ Unchanged { pc := true } s t

/-- `call(addr)` (R133). -/
def Obligations.CallPushesAndJumps : Prop :=
  ∀ nnn : Addr, Encodes (wordA 0x2 nnn) (.call nnn) ∧ ∀ s : State,
    (s.sp = 16 → exec (.call nnn) s = .next (latchedBy s .stackOverflow (wordA 0x2 nnn))) ∧
    (∀ k : Fin 16, s.sp.val = k.val →
      ∃ t, exec (.call nnn) s = .next t ∧ t.stack[k] = s.pc ∧ t.sp.val = k.val + 1 ∧ t.pc.toNat = nnn.toNat ∧
        Unchanged { sp := true, pc := true, stackSlot := some k.val } s t)

/-- The four skips on registers and immediates (R134 to R137). -/
def Obligations.SkipsCompareRegisters : Prop :=
  ∀ (x y : Reg) (kk : Byte),
    Encodes (wordXK 0x3 x kk.toNat) (.skipEqImm x kk) ∧ Encodes (wordXK 0x4 x kk.toNat) (.skipNeqImm x kk) ∧
    Encodes (wordXYN 0x5 x y 0) (.skipEqReg x y) ∧ Encodes (wordXYN 0x9 x y 0) (.skipNeqReg x y) ∧
    ∀ s : State,
      SkipsWhen (.skipEqImm x kk) s (s.v[x].toNat = kk.toNat) ∧
      SkipsWhen (.skipNeqImm x kk) s (s.v[x].toNat ≠ kk.toNat) ∧
      SkipsWhen (.skipEqReg x y) s (s.v[x].toNat = s.v[y].toNat) ∧
      SkipsWhen (.skipNeqReg x y) s (s.v[x].toNat ≠ s.v[y].toNat)

/-- `jump-with-offset(addr)`: V0 is added whatever the word's bits 11 to 8 are, and nothing is reduced (R138). -/
def Obligations.JumpWithOffsetAddsV0 : Prop :=
  ∀ nnn : Addr, Encodes (wordA 0xB nnn) (.jumpOffset nnn) ∧ ∀ s : State,
    ∃ t, exec (.jumpOffset nnn) s = .next t ∧ t.pc.toNat = nnn.toNat + s.v[(0 : Reg)].toNat ∧ t.pc.toNat ≤ 0x10FE ∧
      Unchanged { pc := true } s t

/-- A call followed at once by a return, as two steps from memory: `pc` is the address after the call, `sp` is as before, and
nothing but the stack slot is changed. -/
def Obligations.CallThenReturnComesBack : Prop :=
  ∀ (s : State) (nnn : Addr), s.fault = none → s.pc.toNat ≤ 4094 → s.sp.val < 16 → nnn.toNat ≤ 4094 →
    Holds s s.pc.toNat (wordA 0x2 nnn) → Holds s nnn.toNat 0x00EE →
    ∃ t u, step s = .next t ∧ step t = .next u ∧ u.pc = s.pc + 2 ∧ u.sp = s.sp ∧
      Unchanged { pc := true, stackSlot := some s.sp.val } s u

/-! ## Registers and ALU -/

/-- `set-immediate` and `add-immediate` (R150, R151). -/
def Obligations.ImmediatesSetAndAddWithoutFlag : Prop :=
  ∀ (x : Reg) (kk : Byte),
    Encodes (wordXK 0x6 x kk.toNat) (.setImm x kk) ∧ Encodes (wordXK 0x7 x kk.toNat) (.addImm x kk) ∧
    ∀ s : State, SetsReg (.setImm x kk) s x kk.toNat ∧ SetsReg (.addImm x kk) s x ((s.v[x].toNat + kk.toNat) % 256)

/-- `move`, `or`, `and`, `xor`: the result bit by bit, and no flag (R152 to R155). -/
def Obligations.MoveOrAndXorTouchNoFlag : Prop :=
  ∀ x y : Reg,
    Encodes (wordXYN 0x8 x y 0x0) (.move x y) ∧ Encodes (wordXYN 0x8 x y 0x1) (.orRegs x y) ∧
    Encodes (wordXYN 0x8 x y 0x2) (.andRegs x y) ∧ Encodes (wordXYN 0x8 x y 0x3) (.xorRegs x y) ∧
    ∀ s : State,
      SetsReg (.move x y) s x s.v[y].toNat ∧
      SetsReg (.orRegs x y) s x (s.v[x].toNat ||| s.v[y].toNat) ∧
      SetsReg (.andRegs x y) s x (s.v[x].toNat &&& s.v[y].toNat) ∧
      SetsReg (.xorRegs x y) s x (s.v[x].toNat ^^^ s.v[y].toNat)

/-- `add-regs` (R156). -/
def Obligations.AddRegsCarries : Prop :=
  ∀ x y : Reg, Encodes (wordXYN 0x8 x y 0x4) (.addRegs x y) ∧ ∀ s : State,
    SetsRegAndFlag (.addRegs x y) s x ((s.v[x].toNat + s.v[y].toNat) % 256)
      (if 256 ≤ s.v[x].toNat + s.v[y].toNat then 1 else 0)

/-- `sub-regs` and `sub-regs-reverse`: the flag is 1 when there is no borrow (R157, R159). -/
def Obligations.SubtractionsFlagNoBorrow : Prop :=
  ∀ x y : Reg, Encodes (wordXYN 0x8 x y 0x5) (.subRegs x y) ∧ Encodes (wordXYN 0x8 x y 0x7) (.subRegsReverse x y) ∧
    ∀ s : State,
      SetsRegAndFlag (.subRegs x y) s x
        (if s.v[y].toNat ≤ s.v[x].toNat then s.v[x].toNat - s.v[y].toNat else s.v[x].toNat + 256 - s.v[y].toNat)
        (if s.v[y].toNat ≤ s.v[x].toNat then 1 else 0) ∧
      SetsRegAndFlag (.subRegsReverse x y) s x
        (if s.v[x].toNat ≤ s.v[y].toNat then s.v[y].toNat - s.v[x].toNat else s.v[y].toNat + 256 - s.v[x].toNat)
        (if s.v[x].toNat ≤ s.v[y].toNat then 1 else 0)

/-- `shift-right` and `shift-left`: the source is VY, the flag the bit shifted out (R158, R160). -/
def Obligations.ShiftsReadVyAndFlagTheLostBit : Prop :=
  ∀ x y : Reg, Encodes (wordXYN 0x8 x y 0x6) (.shiftRight x y) ∧ Encodes (wordXYN 0x8 x y 0xE) (.shiftLeft x y) ∧
    ∀ s : State,
      SetsRegAndFlag (.shiftRight x y) s x (s.v[y].toNat / 2) (s.v[y].toNat % 2) ∧
      SetsRegAndFlag (.shiftLeft x y) s x (s.v[y].toNat * 2 % 256) (s.v[y].toNat / 128)

/-- `random-masked`: the STEP command's random byte under the mask, and whatever byte it is the masked-out bits are 0; no
other instruction reads it (R162). `draws` is the model's own count (log entry 2). -/
def Obligations.RandomMaskedUsesOnlyTheMaskedByte : Prop :=
  (∀ (x : Reg) (kk : Byte), Encodes (wordXK 0xC x kk.toNat) (.randomMasked x kk) ∧ ∀ s : State,
    ∃ t, exec (.randomMasked x kk) s = .next t ∧ (∃ r : Byte, t.v[x] = r &&& kk) ∧ t.v[x] &&& ~~~kk = 0 ∧
      Unchanged { regs := [x], draws := true } s t) ∧
  (∀ (x : Reg) (kk rnd : Byte) (s : State), s.fault = none → s.pc.toNat ≤ 4094 →
    Holds s s.pc.toNat (wordXK 0xC x kk.toNat) →
    ∃ t, stepCommand rnd s = .next (t, .stepped false) ∧ t.v[x] = rnd &&& kk) ∧
  (∀ (s : State) (r r' : Byte), (∀ (x : Reg) (kk : Byte), ¬ Holds s s.pc.toNat (wordXK 0xC x kk.toNat)) →
    stepCommand r s = stepCommand r' s)

/-! ## Index register and memory -/

/-- `set-index` and `add-to-index`, the sum modulo 65536, no flag (R180, R181). That the sum wraps is an inference the spec
marks as its own ("the wrap is this spec's reading", R181, D4; log entry 6). -/
def Obligations.IndexIsSetAndAddedTo : Prop :=
  ∀ (nnn : Addr) (x : Reg), Encodes (wordA 0xA nnn) (.setIndex nnn) ∧ Encodes (wordXK 0xF x 0x1E) (.addIndex x) ∧
    ∀ s : State,
      (∃ t, exec (.setIndex nnn) s = .next t ∧ t.index.toNat = nnn.toNat ∧ Unchanged { index := true } s t) ∧
      (∃ t, exec (.addIndex x) s = .next t ∧ t.index.toNat = (s.index.toNat + s.v[x].toNat) % 65536 ∧
        Unchanged { index := true } s t)

/-- `sprite-address` for a digit: five times VX (the part of R182 that the rule defines). -/
def Obligations.SpriteAddressOfADigit : Prop :=
  ∀ x : Reg, Encodes (wordXK 0xF x 0x29) (.spriteAddress x) ∧ ∀ s : State, s.v[x].toNat ≤ 15 →
    ∃ t, exec (.spriteAddress x) s = .next t ∧ t.index.toNat = s.v[x].toNat * 5 ∧ t.index.toNat ≤ 75 ∧
      Unchanged { index := true } s t

/-- `sprite-address` above 15: the model's choice (log entry 3, the alternative of U1), the instruction completes and only `I`
is open. -/
def Obligations.SpriteAddressAboveFifteenLeavesOnlyIndexOpen : Prop :=
  ∀ (x : Reg) (s : State), 15 < s.v[x].toNat →
    ∃ t, exec (.spriteAddress x) s = .next t ∧ t.draws = s.draws + 1 ∧ Unchanged { index := true, draws := true } s t

/-- `store-bcd` (R183). -/
def Obligations.StoreBcdWritesThreeDigits : Prop :=
  ∀ x : Reg, Encodes (wordXK 0xF x 0x33) (.storeBcd x) ∧ ∀ s : State,
    (4093 < s.index.toNat → exec (.storeBcd x) s = .next (latchedBy s .memoryOutOfBounds (wordXK 0xF x 0x33))) ∧
    (s.index.toNat ≤ 4093 → ∃ t, exec (.storeBcd x) s = .next t ∧
      (t.mem.read s.index.toNat).toNat = s.v[x].toNat / 100 ∧
      (t.mem.read (s.index.toNat + 1)).toNat = s.v[x].toNat / 10 % 10 ∧
      (t.mem.read (s.index.toNat + 2)).toNat = s.v[x].toNat % 10 ∧
      Unchanged { stored := (s.index.toNat, 3) } s t)

/-- `store-registers` (R184). -/
def Obligations.StoreRegistersWritesV0ToVx : Prop :=
  ∀ x : Reg, Encodes (wordXK 0xF x 0x55) (.storeRegs x) ∧ ∀ s : State,
    (4095 < s.index.toNat + x.val →
      exec (.storeRegs x) s = .next (latchedBy s .memoryOutOfBounds (wordXK 0xF x 0x55))) ∧
    (s.index.toNat + x.val ≤ 4095 → ∃ t, exec (.storeRegs x) s = .next t ∧
      (∀ r : Reg, r ≤ x → t.mem.read (s.index.toNat + r.val) = s.v[r]) ∧
      t.index.toNat = s.index.toNat + x.val + 1 ∧
      Unchanged { index := true, stored := (s.index.toNat, x.val + 1) } s t)

/-- `load-registers` (R185). -/
def Obligations.LoadRegistersReadsV0ToVx : Prop :=
  ∀ x : Reg, Encodes (wordXK 0xF x 0x65) (.loadRegs x) ∧ ∀ s : State,
    (4095 < s.index.toNat + x.val →
      exec (.loadRegs x) s = .next (latchedBy s .memoryOutOfBounds (wordXK 0xF x 0x65))) ∧
    (s.index.toNat + x.val ≤ 4095 → ∃ t, exec (.loadRegs x) s = .next t ∧
      (∀ r : Reg, r ≤ x → t.v[r] = s.mem.read (s.index.toNat + r.val)) ∧
      t.index.toNat = s.index.toNat + x.val + 1 ∧
      Unchanged { regs := (List.finRange 16).filter (· ≤ x), index := true } s t)

/-- Stored registers come back: after `store-registers`, with `I` set back and the registers overwritten in any way,
`load-registers` with the same X gives V0 to VX their old values and `I` its advanced one. -/
def Obligations.StoreThenLoadRestoresRegisters : Prop :=
  ∀ (x : Reg) (s : State) (w : Vector Byte 16), s.index.toNat + x.val ≤ 4095 →
    ∃ t u, exec (.storeRegs x) s = .next t ∧ exec (.loadRegs x) { t with index := s.index, v := w } = .next u ∧
      (∀ r : Reg, r ≤ x → u.v[r] = s.v[r]) ∧ (∀ r : Reg, x < r → u.v[r] = w[r]) ∧ u.index = t.index

/-- Code can be overwritten: when `store-registers` stores over the two bytes of the following instruction, the next fetch
reads the registers just stored. -/
def Obligations.NextFetchSeesTheStore : Prop :=
  ∀ (x r r' : Reg) (s : State), s.index.toNat + x.val ≤ 4095 → r'.val = r.val + 1 → r' ≤ x →
    s.pc.toNat = s.index.toNat + r.val →
    ∃ t, exec (.storeRegs x) s = .next t ∧ fetch t = some (wordOfBytes s.v[r] s.v[r'])

/-! ## Display -/

/-- `clear-screen` (R200). -/
def Obligations.ClearScreenTurnsEveryPixelOff : Prop :=
  Encodes 0x00E0 .clearScreen ∧ ∀ s : State,
    ∃ t, exec .clearScreen s = .next t ∧ (∀ (i : Fin 64) (j : Fin 32), t.pixel i j = false) ∧ Unchanged { fb := true } s t

/-- `draw-sprite`: the loop over rows and bits toggles exactly the pixels that a visible 1 bit lands on, and VF is 1 exactly
when one of them was on; out of bounds nothing happens but the latch (R201). -/
def Obligations.DrawSpriteTogglesTheLitPixels : Prop :=
  ∀ (x y : Reg) (n : Height), Encodes (wordXYN 0xD x y n.val) (.drawSprite x y n) ∧ ∀ s : State,
    (0 < n.val ∧ 4095 < s.index.toNat + n.val - 1 →
      exec (.drawSprite x y n) s = .next (latchedBy s .memoryOutOfBounds (wordXYN 0xD x y n.val))) ∧
    (n.val = 0 ∨ s.index.toNat + n.val - 1 ≤ 4095 → ∃ t, exec (.drawSprite x y n) s = .next t ∧
      (∀ (i : Fin 64) (j : Fin 32), SpriteLit s x y n i j → t.pixel i j = !s.pixel i j) ∧
      (∀ (i : Fin 64) (j : Fin 32), ¬ SpriteLit s x y n i j → t.pixel i j = s.pixel i j) ∧
      ((∃ (i : Fin 64) (j : Fin 32), SpriteLit s x y n i j ∧ s.pixel i j = true) → t.v[(15 : Reg)] = 1) ∧
      ((¬ ∃ (i : Fin 64) (j : Fin 32), SpriteLit s x y n i j ∧ s.pixel i j = true) → t.v[(15 : Reg)] = 0) ∧
      Unchanged { regs := [15], fb := true } s t)

/-- Drawing the same sprite twice restores the framebuffer, and the second draw collides exactly when the first turned a pixel
on. -/
def Obligations.DoubleDrawRestoresTheScreen : Prop :=
  ∀ (x y : Reg) (n : Height) (s : State), x ≠ 15 → y ≠ 15 → (n.val = 0 ∨ s.index.toNat + n.val - 1 ≤ 4095) →
    ∃ t u, exec (.drawSprite x y n) s = .next t ∧ exec (.drawSprite x y n) t = .next u ∧
      (∀ (i : Fin 64) (j : Fin 32), u.pixel i j = s.pixel i j) ∧
      (u.v[(15 : Reg)] = 1 ↔ ∃ (i : Fin 64) (j : Fin 32), SpriteLit s x y n i j ∧ s.pixel i j = false) ∧
      Unchanged { regs := [15] } s u

/-! ## Keys and timers -/

/-- The key skips: on the flag of key V[x], a failure above 15 (R220, R221). -/
def Obligations.KeySkipsReadTheFlagOrFail : Prop :=
  ∀ x : Reg, Encodes (wordXK 0xE x 0x9E) (.skipKeyDown x) ∧ Encodes (wordXK 0xE x 0xA1) (.skipKeyUp x) ∧ ∀ s : State,
    (15 < s.v[x].toNat →
      exec (.skipKeyDown x) s = .next (latchedBy s .keyIndexOutOfRange (wordXK 0xE x 0x9E)) ∧
      exec (.skipKeyUp x) s = .next (latchedBy s .keyIndexOutOfRange (wordXK 0xE x 0xA1))) ∧
    (∀ k : Fin 16, s.v[x].toNat = k.val →
      SkipsWhen (.skipKeyDown x) s (s.key[k] = true) ∧ SkipsWhen (.skipKeyUp x) s (s.key[k] = false))

/-- `wait-for-key`: with no key down a STEP changes nothing; else the lowest pressed key goes to VX (R222). -/
def Obligations.WaitForKeyTakesTheLowestKey : Prop :=
  ∀ x : Reg, Encodes (wordXK 0xF x 0x0A) (.waitKey x) ∧ ∀ s : State,
    ((∀ k : Fin 16, s.key[k] = false) →
      exec (.waitKey x) s = .next { s with pc := s.pc - 2 } ∧
      (∀ rnd : Byte, s.fault = none → s.pc.toNat ≤ 4094 → Holds s s.pc.toNat (wordXK 0xF x 0x0A) →
        stepCommand rnd s = .next ({ s with rndIn := none }, .stepped false))) ∧
    (∀ k : Fin 16, s.key[k] = true → (∀ j : Fin 16, j < k → s.key[j] = false) →
      SetsReg (.waitKey x) s x k.val)

/-- The three timer instructions (R223 to R225). -/
def Obligations.TimerInstructionsMoveTimers : Prop :=
  ∀ x : Reg, Encodes (wordXK 0xF x 0x07) (.getDelay x) ∧ Encodes (wordXK 0xF x 0x15) (.setDelay x) ∧
    Encodes (wordXK 0xF x 0x18) (.setSound x) ∧ ∀ s : State,
      SetsReg (.getDelay x) s x s.dt.toNat ∧
      (∃ t, exec (.setDelay x) s = .next t ∧ t.dt = s.v[x] ∧ Unchanged { dt := true } s t) ∧
      (∃ t, exec (.setSound x) s = .next t ∧ t.st = s.v[x] ∧ (t.soundOn = true ↔ s.v[x].toNat ≠ 0) ∧
        Unchanged { st := true } s t)

/-! ## Failures -/

/-- The conditions of R241, for every command: a STEP latches what the table gives from the state before it and nothing else
latches; SETKEY and LOAD likewise; an unknown word is reported and latches nothing; the codes are those of the table. That a
step on `sprite-address` with VX above 15 goes on, latching nothing, is the model's choice (log entry 3). -/
def Obligations.FailuresAreExactlyTheTable : Prop :=
  (∀ s : State, s.fault = none → ∃ t, step s = .next t ∧ t.fault = stepFailure s) ∧
  (∀ (s : State) (k : Nat) (p : Bool), s.fault = none →
    (setKeyCommand k p s).1.fault = if 15 < k then some ⟨.invalidKeyIndex, 0, 0⟩ else none) ∧
  (∀ (s : State) (font : Font) (bs : List Byte), s.fault = none →
    (loadCommand font bs s).1.fault = if 3584 < bs.length then some ⟨.outOfMemory, 0, 0⟩ else none) ∧
  (∀ (s : State) (op : Word) (rnd : Byte), s.fault = none → s.pc.toNat ≤ 4094 → Holds s s.pc.toNat op →
    decodeWord op = none → ∃ t, stepCommand rnd s = .next (t, .unknown op s.pc) ∧ t.fault = none) ∧
  [Cause.fetchOutOfBounds, .stackOverflow, .stackUnderflow, .keyIndexOutOfRange, .invalidKeyIndex, .outOfMemory,
    .memoryOutOfBounds].map Cause.code = [1, 2, 3, 4, 5, 6, 7]

/-- A failing command has none of its own effects: only the latch is set, `pc` has its advance unless the fetch failed, and the
command returns the cause (R246, R248). -/
def Obligations.FailuresArePrecise : Prop :=
  (∀ (s t : State) (f : FaultRecord), step s = .next t → t.fault = some f →
    t = { s with pc := if f.cause = .fetchOutOfBounds then s.pc else s.pc + 2, fault := some f } ∧ f.iaddr = s.pc) ∧
  (∀ (s : State) (f : FaultRecord) (rnd : Byte), s.fault = none → stepFailure s = some f → stepCommand rnd s =
    .next ({ s with pc := if f.cause = .fetchOutOfBounds then s.pc else s.pc + 2, fault := some f, rndIn := none },
      .fault f.cause)) ∧
  (∀ (s : State) (k : Nat) (p : Bool), s.fault = none → 15 < k →
    setKeyCommand k p s = ({ s with fault := some ⟨.invalidKeyIndex, 0, 0⟩ }, .fault .invalidKeyIndex)) ∧
  (∀ (s : State) (font : Font) (bs : List Byte), s.fault = none → 3584 < bs.length →
    loadCommand font bs s = ({ s with fault := some ⟨.outOfMemory, 0, 0⟩ }, .fault .outOfMemory))

/-- `step` on a set latch stops by name: the model's form (log entry 4) of R91, where STEP does nothing. -/
def Obligations.StepStopsOnASetLatch : Prop :=
  ∀ (s : State) (f : FaultRecord), s.fault = some f → step s = .fault (.latched f.cause)

/-- While the latch is set STEP, TICK, SETKEY and LOAD change nothing and return its cause, and RESET clears it (R91, R247). -/
def Obligations.LatchFreezesTheBlock : Prop :=
  ∀ (s : State) (f : FaultRecord) (rnd : Byte) (k : Nat) (p : Bool) (font : Font) (bs : List Byte), s.fault = some f →
    stepCommand rnd s = .next (s, .fault f.cause) ∧
    tickCommand s = (s, .fault f.cause) ∧
    setKeyCommand k p s = (s, .fault f.cause) ∧
    loadCommand font bs s = (s, .fault f.cause) ∧
    (resetCommand s).1.fault = none

/-! ## Commands -/

/-- RESET leaves the table of R36, from every state, and returns Ok; a STEP then finds the word 0 at 0x200 (R290). -/
def Obligations.ResetLeavesTheTable : Prop :=
  ∀ s : State, ∃ t, resetCommand s = (t, .ok) ∧
    (∀ r : Reg, t.v[r] = 0) ∧ t.index = 0 ∧ t.pc = 0x200 ∧ t.sp = 0 ∧ (∀ i : Fin 16, t.stack[i] = 0) ∧ t.dt = 0 ∧ t.st = 0 ∧
    (∀ a : Nat, t.mem.read a = 0) ∧ (∀ (i : Fin 64) (j : Fin 32), t.pixel i j = false) ∧ (∀ k : Fin 16, t.key[k] = false) ∧
    t.fault = none ∧ ∀ rnd : Byte, stepCommand rnd t = .next ({ t with pc := 0x202 }, .unknown 0x0000 0x0200)

/-- `LOAD(bytes)` (R293). -/
def Obligations.LoadInstallsFontAndProgram : Prop :=
  ∀ (font : Font) (bs : List Byte) (s : State),
    (∀ f, s.fault = some f → loadCommand font bs s = (s, .fault f.cause)) ∧
    (s.fault = none → 3584 < bs.length →
      loadCommand font bs s = ({ s with fault := some ⟨.outOfMemory, 0, 0⟩ }, .fault .outOfMemory)) ∧
    (s.fault = none → bs.length ≤ 3584 → ∃ t, loadCommand font bs s = (t, .ok) ∧
      (∀ k, k < bs.length → t.mem.read (0x200 + k) = bs.getD k 0) ∧
      (∀ k : Fin 80, t.mem.read k.val = font[k]) ∧
      (∀ a, 80 ≤ a → ¬ (0x200 ≤ a ∧ a < 0x200 + bs.length) → t.mem.read a = s.mem.read a) ∧
      Unchanged { stored := (0, 4096) } s t)

/-- The launch state: after RESET and a LOAD that fits, from any block, the font, the program and zeros are in memory and
everything else is as RESET leaves it. -/
def Obligations.LaunchState : Prop :=
  ∀ (font : Font) (bs : List Byte) (b : Block), bs.length ≤ 3584 →
    ∃ m : State, commands font [.reset, .load bs] b = .next ⟨.running, m⟩ ∧
      Unchanged { stored := (0, 4096), draws := true } State.reset m ∧
      (∀ k : Fin 80, m.mem.read k.val = font[k]) ∧
      (∀ k, k < bs.length → m.mem.read (0x200 + k) = bs.getD k 0) ∧
      (∀ a, 80 ≤ a → ¬ (0x200 ≤ a ∧ a < 0x200 + bs.length) → m.mem.read a = 0)

/-- `TICK` (R258). -/
def Obligations.TickCountsBothTimersDown : Prop :=
  ∀ s : State,
    (∀ f, s.fault = some f → tickCommand s = (s, .fault f.cause)) ∧
    (s.fault = none → ∃ t, tickCommand s = (t, .ok) ∧
      (s.dt = 0 → t.dt = 0) ∧ (s.dt ≠ 0 → t.dt.toNat + 1 = s.dt.toNat) ∧
      (s.st = 0 → t.st = 0) ∧ (s.st ≠ 0 → t.st.toNat + 1 = s.st.toNat) ∧ Unchanged { dt := true, st := true } s t)

/-- After `k` ticks a timer that held `v` holds `max(0, v - k)`, and a following `get-delay-timer` reads that. -/
def Obligations.TimersReachZeroAndStay : Prop :=
  ∀ (s : State) (k : Nat) (x : Reg), s.fault = none →
    (ticked^[k] s).dt.toNat = s.dt.toNat - k ∧ (ticked^[k] s).st.toNat = s.st.toNat - k ∧
    SetsReg (.getDelay x) (ticked^[k] s) x (s.dt.toNat - k) ∧ Unchanged { dt := true, st := true } s (ticked^[k] s)

/-- `SETKEY(index, pressed)` (R261). -/
def Obligations.SetKeyWritesOneFlag : Prop :=
  ∀ (s : State) (k : Nat) (p : Bool),
    (∀ f, s.fault = some f → setKeyCommand k p s = (s, .fault f.cause)) ∧
    (s.fault = none → 15 < k →
      setKeyCommand k p s = ({ s with fault := some ⟨.invalidKeyIndex, 0, 0⟩ }, .fault .invalidKeyIndex)) ∧
    (∀ i : Fin 16, s.fault = none → k = i.val → ∃ t, setKeyCommand k p s = (t, .ok) ∧ t.key[i] = p ∧
      (∀ j : Fin 16, j ≠ i → t.key[j] = s.key[j]) ∧ { t with key := s.key } = s)

/-- `fb_touched` is 1 exactly when the STEP executed `clear-screen` or `draw-sprite` without failure (R204). That a STEP on
`sprite-address` with VX above 15 answers is the model's choice (log entry 3). -/
def Obligations.ChangeNoticeMarksTheTwoScreenInstructions : Prop :=
  ∀ (s : State) (rnd : Byte), s.fault = none → ∃ t res, stepCommand rnd s = .next (t, res) ∧
    (res = .stepped true ↔ t.fault = none ∧ ∃ op, fetch s = some op ∧
      (op = 0x00E0 ∨ ∃ (x y : Reg) (n : Height), op = wordXYN 0xD x y n.val))

/-- The place in the lifecycle decides what has a meaning: before the first RESET only RESET, and LOAD only right after RESET;
RESET is always answered. The model's choices: the lifecycle's form (log entry 7), a late LOAD refused also with the latch set
(log entry 13), and that a STEP on `sprite-address` with VX above 15 is answered (log entry 3). -/
def Obligations.CommandsOutOfPlaceAreRefused : Prop :=
  ∀ (font : Font) (c : Command) (b : Block),
    (b.lifecycle = .unreset → c ≠ .reset → command font c b = .refused .beforeReset) ∧
    (∀ bs, b.lifecycle = .running → c = .load bs → command font c b = .refused .loadOutsideLifecycle) ∧
    (c = .reset → ∃ m, command font c b = .next (⟨.fresh, m⟩, .ok)) ∧
    (b.lifecycle ≠ .unreset → c ≠ .reset → (b.lifecycle = .running → ∀ bs, c ≠ .load bs) →
      ∃ m res, command font c b = .next (⟨.running, m⟩, res))

/-! ## The whole machine -/

/-- Every instruction goes to a next state from every state, and writes nothing but what R37's table gives it; TICK writes only
the timers, LOAD only memory or the latch, SETKEY only the key flags or the latch. The model's choice, not R37's: that
`sprite-address` with VX above 15, UNDEFINED in R182, completes and only `I` is open (log entry 3), and the field `draws`, the
model's own count, which R37 does not list (log entries 2 and 3). -/
def Obligations.OnlyTheListedWritersWrite : Prop :=
  (∀ (i : Instr) (s : State), ∃ t, exec i s = .next t ∧ Unchanged (mayChange i s) s t) ∧
  (∀ s : State, Unchanged { dt := true, st := true } s (tickCommand s).1) ∧
  (∀ (s : State) (font : Font) (bs : List Byte),
    Unchanged { stored := (0, 4096), fault := true } s (loadCommand font bs s).1) ∧
  (∀ (s : State) (k : Nat) (p : Bool), { (setKeyCommand k p s).1 with key := s.key, fault := s.fault } = s)

/-- No instruction reads the sound timer: with another value in it an instruction does the same, and leaves that value unless
it is the one that writes it. Of `sprite-address` with VX above 15 this is the model's choice (log entry 3). -/
def Obligations.SoundTimerIsNeverRead : Prop :=
  ∀ (i : Instr) (s t : State) (b : Byte), exec i s = .next t →
    ∃ u, exec i { s with st := b } = .next u ∧ { u with st := t.st } = t ∧
      ((∃ x, i = .setSound x) → u.st = t.st) ∧ ((∀ x, i ≠ .setSound x) → u.st = b)

/-- The state after RESET meets the invariant. -/
def Obligations.ResetMeetsTheInvariant : Prop := State.reset.Inv ∧ ∀ s : State, (resetCommand s).1.Inv

/-- Every step keeps the invariant: `pc` at most 4350, live stack entries in 2 to 4096, memory canonical. -/
def Obligations.StepKeepsTheInvariant : Prop := ∀ s t : State, s.Inv → step s = .next t → t.Inv

/-- Memory's canonical form is kept by every step from every state, whatever the other fields hold. -/
def Obligations.StepKeepsMemoryCanonical : Prop := ∀ s t : State, s.mem.wf = true → step s = .next t → t.mem.wf = true

/-- Every sequence of commands keeps the invariant, from any block; in particular after a RESET it holds. -/
def Obligations.EveryCommandRunKeepsTheInvariant : Prop :=
  ∀ (font : Font) (cs : List Command) (b b' : Block), BlockInv b → commands font cs b = .next b' → BlockInv b'

/-- A parked state stays as it is at every STEP, stays parked at every TICK and valid SETKEY, and no number of steps makes it
fail. -/
def Obligations.ParkedStaysParked : Prop :=
  ∀ (h : Addr) (s : State), s.ParkedAt h →
    step s = .next s ∧ (∀ rnd, stepCommand rnd s = .next ({ s with rndIn := none }, .stepped false)) ∧
    (tickCommand s).1.ParkedAt h ∧ (∀ (k : Fin 16) (p : Bool), (setKeyCommand k.val p s).1.ParkedAt h) ∧
    ∀ n, State.SafeFor n s
end

