-- ==== Sys2Proof/Laws/Decode.lean ====
section
/-! SUPPORT. Words as numbers: the formats assembled, the fields taken apart, and that the two agree. -/

namespace Sys2Proof

theorem append_toNat {m n : Nat} (a : BitVec m) (b : BitVec n) : (a ++ b).toNat = a.toNat * 2 ^ n + b.toNat := by
  rw [BitVec.toNat_append, ← Nat.shiftLeft_add_eq_or_of_lt b.isLt, Nat.shiftLeft_eq]

/-! ## The formats as numbers (R95) -/

theorem wordOfBytes_toNat (hi lo : Byte) : (wordOfBytes hi lo).toNat = hi.toNat * 256 + lo.toNat := append_toNat hi lo

theorem formatA_toNat (f : BitVec 4) (a : Addr) : (formatA f a).toNat = f.toNat * 4096 + a.toNat := append_toNat f a

theorem formatXK_toNat (f : BitVec 4) (x : Reg) (kk : Byte) :
    (formatXK f x kk).toNat = f.toNat * 4096 + x.val * 256 + kk.toNat := by
  refine (append_toNat f _).trans ?_
  rw [append_toNat]
  simp only [BitVec.toNat_ofFin]
  omega

theorem formatXYN_toNat (f : BitVec 4) (x y : Reg) (n : BitVec 4) :
    (formatXYN f x y n).toNat = f.toNat * 4096 + x.val * 256 + y.val * 16 + n.toNat := by
  refine (append_toNat f _).trans ?_
  rw [append_toNat, append_toNat]
  simp only [BitVec.toNat_ofFin]
  omega

theorem formatA_ofNat (f : BitVec 4) (a : Addr) : BitVec.ofNat 16 (f.toNat * 4096 + a.toNat) = formatA f a := by
  apply BitVec.eq_of_toNat_eq
  rw [BitVec.toNat_ofNat, formatA_toNat, Nat.mod_eq_of_lt]
  have := f.isLt; have := a.isLt; omega

theorem formatXK_ofNat (f : BitVec 4) (x : Reg) (kk : Byte) :
    BitVec.ofNat 16 (f.toNat * 4096 + x.val * 256 + kk.toNat) = formatXK f x kk := by
  apply BitVec.eq_of_toNat_eq
  rw [BitVec.toNat_ofNat, formatXK_toNat, Nat.mod_eq_of_lt]
  have := f.isLt; have := x.isLt; have := kk.isLt; omega

theorem formatXYN_ofNat (f : BitVec 4) (x y : Reg) (n : BitVec 4) :
    BitVec.ofNat 16 (f.toNat * 4096 + x.val * 256 + y.val * 16 + n.toNat) = formatXYN f x y n := by
  apply BitVec.eq_of_toNat_eq
  rw [BitVec.toNat_ofNat, formatXYN_toNat, Nat.mod_eq_of_lt]
  have := f.isLt; have := x.isLt; have := y.isLt; have := n.isLt; omega

/-! ## The fields as numbers (R96) -/

theorem famOf_toNat (w : Word) : (famOf w).toNat = w.toNat / 4096 := by
  have := w.isLt
  simp only [famOf, BitVec.extractLsb'_toNat, Nat.shiftRight_eq_div_pow]
  omega

theorem xOf_val (w : Word) : (xOf w).val = w.toNat / 256 % 16 := by
  simp only [xOf, BitVec.val_toFin, BitVec.extractLsb'_toNat, Nat.shiftRight_eq_div_pow]

theorem yOf_val (w : Word) : (yOf w).val = w.toNat / 16 % 16 := by
  simp only [yOf, BitVec.val_toFin, BitVec.extractLsb'_toNat, Nat.shiftRight_eq_div_pow]

theorem nOf_toNat (w : Word) : (nOf w).toNat = w.toNat % 16 := by
  simp only [nOf, BitVec.extractLsb'_toNat, Nat.shiftRight_zero]

theorem heightOf_val (w : Word) : (heightOf w).val = w.toNat % 16 := by
  simp only [heightOf, BitVec.val_toFin, nOf_toNat]

theorem kkOf_toNat (w : Word) : (kkOf w).toNat = w.toNat % 256 := by
  simp only [kkOf, BitVec.extractLsb'_toNat, Nat.shiftRight_zero]

theorem nnnOf_toNat (w : Word) : (nnnOf w).toNat = w.toNat % 4096 := by
  simp only [nnnOf, BitVec.extractLsb'_toNat, Nat.shiftRight_zero]

theorem highByte_toNat (w : Word) : (highByte w).toNat = w.toNat / 256 := by
  have := w.isLt
  simp only [highByte, BitVec.extractLsb'_toNat, Nat.shiftRight_eq_div_pow]
  omega

theorem lowByte_toNat (w : Word) : (lowByte w).toNat = w.toNat % 256 := by
  simp only [lowByte, BitVec.extractLsb'_toNat, Nat.shiftRight_zero]

/-- A word is its high byte and its low byte (R65). -/
theorem wordOfBytes_high_low (w : Word) : wordOfBytes (highByte w) (lowByte w) = w := by
  apply BitVec.eq_of_toNat_eq
  rw [wordOfBytes_toNat, highByte_toNat, lowByte_toNat]
  omega

theorem highByte_wordOfBytes (hi lo : Byte) : highByte (wordOfBytes hi lo) = hi := by
  apply BitVec.eq_of_toNat_eq
  have := lo.isLt
  rw [highByte_toNat, wordOfBytes_toNat]
  omega

theorem lowByte_wordOfBytes (hi lo : Byte) : lowByte (wordOfBytes hi lo) = lo := by
  apply BitVec.eq_of_toNat_eq
  have := lo.isLt
  rw [lowByte_toNat, wordOfBytes_toNat]
  omega

/-! ## Fields of an assembled word -/

theorem famOf_formatA (f : BitVec 4) (a : Addr) : famOf (formatA f a) = f := by
  apply BitVec.eq_of_toNat_eq; have := a.isLt; rw [famOf_toNat, formatA_toNat]; omega

theorem nnnOf_formatA (f : BitVec 4) (a : Addr) : nnnOf (formatA f a) = a := by
  apply BitVec.eq_of_toNat_eq; have := a.isLt; rw [nnnOf_toNat, formatA_toNat]; omega

theorem famOf_formatXK (f : BitVec 4) (x : Reg) (k : Byte) : famOf (formatXK f x k) = f := by
  apply BitVec.eq_of_toNat_eq; have := k.isLt; rw [famOf_toNat, formatXK_toNat]; omega

theorem xOf_formatXK (f : BitVec 4) (x : Reg) (k : Byte) : xOf (formatXK f x k) = x := by
  apply Fin.ext; have := k.isLt; rw [xOf_val, formatXK_toNat]; omega

theorem kkOf_formatXK (f : BitVec 4) (x : Reg) (k : Byte) : kkOf (formatXK f x k) = k := by
  apply BitVec.eq_of_toNat_eq; have := k.isLt; rw [kkOf_toNat, formatXK_toNat]; omega

theorem famOf_formatXYN (f : BitVec 4) (x y : Reg) (n : BitVec 4) : famOf (formatXYN f x y n) = f := by
  apply BitVec.eq_of_toNat_eq; have := n.isLt; rw [famOf_toNat, formatXYN_toNat]; omega

theorem xOf_formatXYN (f : BitVec 4) (x y : Reg) (n : BitVec 4) : xOf (formatXYN f x y n) = x := by
  apply Fin.ext; have := n.isLt; rw [xOf_val, formatXYN_toNat]; omega

theorem yOf_formatXYN (f : BitVec 4) (x y : Reg) (n : BitVec 4) : yOf (formatXYN f x y n) = y := by
  apply Fin.ext; have := n.isLt; rw [yOf_val, formatXYN_toNat]; omega

theorem nOf_formatXYN (f : BitVec 4) (x y : Reg) (n : BitVec 4) : nOf (formatXYN f x y n) = n := by
  apply BitVec.eq_of_toNat_eq; have := n.isLt; rw [nOf_toNat, formatXYN_toNat]; omega

/-! ## A word from its fields -/

theorem formatA_fields (w : Word) : formatA (famOf w) (nnnOf w) = w := by
  apply BitVec.eq_of_toNat_eq; rw [formatA_toNat, famOf_toNat, nnnOf_toNat]; omega

theorem formatXK_fields (w : Word) : formatXK (famOf w) (xOf w) (kkOf w) = w := by
  apply BitVec.eq_of_toNat_eq; rw [formatXK_toNat, famOf_toNat, xOf_val, kkOf_toNat]; omega

theorem formatXYN_fields (w : Word) : formatXYN (famOf w) (xOf w) (yOf w) (nOf w) = w := by
  apply BitVec.eq_of_toNat_eq; rw [formatXYN_toNat, famOf_toNat, xOf_val, yOf_val, nOf_toNat]; omega

end Sys2Proof
end

