-- ==== Sys2Proof/Laws/Memory.lean ====
section
/-! SUPPORT. Memory: read after write, the canonical form and that every operation keeps it, and that canonical memories that
read alike are equal. -/

namespace Sys2Proof.Machine

theorem Memory.read_insert (m : Memory) (a : Nat) (b : Byte) (k : Nat) :
    Memory.read (m.insert a b) k = if k = a then b else m.read k := by
  induction m with
  | nil => simp [Memory.insert, Memory.read, eq_comm]
  | cons p rest ih =>
    obtain ⟨j, c⟩ := p
    by_cases h1 : a < j
    · rw [Memory.insert, if_pos h1]; simp only [Memory.read, eq_comm]
    · by_cases h2 : a = j
      · subst h2
        rw [Memory.insert, if_neg h1, if_pos rfl]
        simp only [Memory.read]; split_ifs <;> first | rfl | omega
      · rw [Memory.insert, if_neg h1, if_neg h2]
        simp only [Memory.read, ih]; split_ifs <;> first | rfl | omega

theorem Memory.read_erase (m : Memory) (a k : Nat) :
    Memory.read (m.filter fun p => decide (p.1 ≠ a)) k = if k = a then 0 else m.read k := by
  induction m with
  | nil => simp [Memory.read]
  | cons p rest ih =>
    obtain ⟨j, c⟩ := p
    by_cases hj : j = a
    · subst hj
      rw [List.filter_cons_of_neg (by simp), ih]
      simp only [Memory.read]; split_ifs with h1 h2 <;> first | rfl | omega
    · rw [List.filter_cons_of_pos (by simpa using hj)]
      simp only [Memory.read, ih]; split_ifs <;> first | rfl | omega

/-- A read after a write: the byte written at its address, every other byte as before. -/
theorem Memory.read_write (m : Memory) (a : Nat) (b : Byte) (k : Nat) :
    Memory.read (m.write a b) k = if k = a then b else m.read k := by
  by_cases h : b = 0
  · subst h; simpa [Memory.write] using Memory.read_erase m a k
  · rw [Memory.write, if_neg h, Memory.read_insert]

/-- A read after a write of bytes from `a` up: inside the range the byte written there, outside as before. -/
theorem Memory.read_writeBytes (m : Memory) (a : Nat) (bs : List Byte) (k : Nat) :
    Memory.read (m.writeBytes a bs) k = if a ≤ k then (bs[k - a]?).getD (m.read k) else m.read k := by
  induction bs generalizing m a with
  | nil => simp [Memory.writeBytes]
  | cons b bs ih =>
    rw [Memory.writeBytes, ih, Memory.read_write]
    by_cases h1 : a + 1 ≤ k
    · obtain ⟨d, rfl⟩ : ∃ d, k = a + 1 + d := ⟨k - (a + 1), by omega⟩
      have : a + 1 + d - a = d + 1 := by omega
      simp [this, show a ≤ a + 1 + d by omega, show a + 1 + d ≠ a by omega]
    · by_cases h2 : k = a
      · subst h2; simp
      · simp [h1, h2, show ¬ a ≤ k by omega]

/-- Outside the stored bytes nothing changes. -/
theorem Memory.read_writeBytes_outside (m : Memory) (a : Nat) (bs : List Byte) (k : Nat)
    (h : ¬ (a ≤ k ∧ k < a + bs.length)) : Memory.read (m.writeBytes a bs) k = m.read k := by
  rw [Memory.read_writeBytes]
  split
  · rw [List.getElem?_eq_none (by omega)]; rfl
  · rfl

@[simp] theorem Memory.readBytes_length (m : Memory) (a n : Nat) : (m.readBytes a n).length = n := by
  induction n generalizing a with
  | zero => rfl
  | succ n ih => simp [Memory.readBytes, ih]

/-- Byte `k` of `n` bytes from `a` up is the byte at `a + k`. -/
theorem Memory.readBytes_get (m : Memory) (a n k : Nat) (h : k < n) : (m.readBytes a n)[k]? = some (m.read (a + k)) := by
  induction n generalizing a k with
  | zero => omega
  | succ n ih =>
    cases k with
    | zero => simp [Memory.readBytes]
    | succ k => simp [Memory.readBytes, ih (a + 1) k (by omega), Nat.add_assoc, Nat.add_comm 1 k]

/-! ## The canonical form -/

theorem Memory.wfFrom_cons (lo k : Nat) (b : Byte) (rest : Memory) :
    Memory.wfFrom lo ((k, b) :: rest) = true ↔ lo ≤ k ∧ k < 4096 ∧ b ≠ 0 ∧ Memory.wfFrom (k + 1) rest = true := by
  simp [Memory.wfFrom, and_assoc]

theorem Memory.wfFrom_mono {lo lo' : Nat} {m : Memory} (h : Memory.wfFrom lo m = true) (hl : lo' ≤ lo) :
    Memory.wfFrom lo' m = true := by
  cases m with
  | nil => rfl
  | cons p rest => obtain ⟨k, b⟩ := p; rw [Memory.wfFrom_cons] at *; exact ⟨by omega, h.2⟩

theorem Memory.wfFrom_insert {lo a : Nat} {m : Memory} {b : Byte} (h : Memory.wfFrom lo m = true) (hl : lo ≤ a)
    (ha : a < 4096) (hb : b ≠ 0) : Memory.wfFrom lo (m.insert a b) = true := by
  induction m generalizing lo with
  | nil => rw [Memory.insert, Memory.wfFrom_cons]; exact ⟨hl, ha, hb, rfl⟩
  | cons p rest ih =>
    obtain ⟨k, c⟩ := p
    rw [Memory.wfFrom_cons] at h
    simp only [Memory.insert]
    split_ifs with h1 h2
    · rw [Memory.wfFrom_cons, Memory.wfFrom_cons]; exact ⟨hl, ha, hb, by omega, h.2⟩
    · subst h2; rw [Memory.wfFrom_cons]; exact ⟨hl, ha, hb, h.2.2.2⟩
    · rw [Memory.wfFrom_cons]; exact ⟨h.1, h.2.1, h.2.2.1, ih h.2.2.2 (by omega)⟩

theorem Memory.wfFrom_filter {lo : Nat} {m : Memory} (q : Host.Cell → Bool) (h : Memory.wfFrom lo m = true) :
    Memory.wfFrom lo (m.filter q) = true := by
  induction m generalizing lo with
  | nil => rfl
  | cons p rest ih =>
    obtain ⟨k, c⟩ := p
    rw [Memory.wfFrom_cons] at h
    rw [List.filter_cons]
    split
    · rw [Memory.wfFrom_cons]; exact ⟨h.1, h.2.1, h.2.2.1, ih h.2.2.2⟩
    · exact Memory.wfFrom_mono (ih h.2.2.2) (by omega)

/-- A write inside the 4096 bytes keeps the canonical form. -/
theorem Memory.wf_write {m : Memory} {a : Nat} (b : Byte) (h : m.wf = true) (ha : a < 4096) :
    Memory.wf (m.write a b) = true := by
  unfold Memory.write Memory.wf at *
  split
  · exact Memory.wfFrom_filter _ h
  · exact Memory.wfFrom_insert h (Nat.zero_le a) ha ‹_›

/-- A write of bytes inside the 4096 bytes keeps the canonical form. -/
theorem Memory.wf_writeBytes {m : Memory} {a : Nat} (bs : List Byte) (h : m.wf = true) (ha : a + bs.length ≤ 4096) :
    Memory.wf (m.writeBytes a bs) = true := by
  induction bs generalizing m a with
  | nil => exact h
  | cons b bs ih =>
    simp only [List.length_cons] at ha
    exact ih (Memory.wf_write b h (by omega)) (by omega)

/-- The memory of the reset state is canonical. -/
theorem Memory.wf_reset : State.reset.mem.wf = true := rfl

theorem Memory.read_below {lo : Nat} {m : Memory} (h : Memory.wfFrom lo m = true) {a : Nat} (ha : a < lo) : m.read a = 0 := by
  induction m generalizing lo with
  | nil => rfl
  | cons p rest ih =>
    obtain ⟨k, c⟩ := p
    rw [Memory.wfFrom_cons] at h
    rw [Memory.read, if_neg (by omega)]
    exact ih h.2.2.2 (by omega)

theorem Memory.ext_from {lo : Nat} {m m' : Memory} (h : Memory.wfFrom lo m = true) (h' : Memory.wfFrom lo m' = true)
    (hr : ∀ a, m.read a = m'.read a) : m = m' := by
  induction m generalizing lo m' with
  | nil =>
    cases m' with
    | nil => rfl
    | cons p rest =>
      obtain ⟨k, c⟩ := p
      have := hr k
      simp [Memory.read] at this
      exact absurd this.symm ((Memory.wfFrom_cons ..).1 h').2.2.1
  | cons p rest ih =>
    obtain ⟨k, c⟩ := p
    rw [Memory.wfFrom_cons] at h
    cases m' with
    | nil =>
      have := hr k
      simp [Memory.read] at this
      exact absurd this h.2.2.1
    | cons p' rest' =>
      obtain ⟨k', c'⟩ := p'
      rw [Memory.wfFrom_cons] at h'
      have hk : k = k' := by
        rcases Nat.lt_trichotomy k k' with hlt | heq | hgt
        · have h0 := hr k
          rw [Memory.read, if_pos rfl, Memory.read, if_neg (by omega), Memory.read_below h'.2.2.2 (by omega)] at h0
          exact absurd h0 h.2.2.1
        · exact heq
        · have h0 := hr k'
          rw [Memory.read, if_neg (by omega), Memory.read_below h.2.2.2 (by omega), Memory.read, if_pos rfl] at h0
          exact absurd h0.symm h'.2.2.1
      subst hk
      have hc : c = c' := by simpa [Memory.read] using hr k
      subst hc
      congr 1
      refine ih h.2.2.2 h'.2.2.2 fun a => ?_
      have h0 := hr a
      by_cases ha : k = a
      · subst ha
        rw [Memory.read_below h.2.2.2 (by omega), Memory.read_below h'.2.2.2 (by omega)]
      · simpa [Memory.read, ha] using h0

/-- Canonical memories that read alike at every address are the same list. -/
theorem Memory.ext_of_wf {m m' : Memory} (h : m.wf = true) (h' : m'.wf = true) (hr : ∀ a, m.read a = m'.read a) : m = m' :=
  Memory.ext_from h h' hr

end Sys2Proof.Machine
end

