-- ==== Sys2Proof/Laws/State.lean ====
section
/-! SUPPORT. One lemma per field per update of State, true by rfl, so that no proof unfolds a record update. -/

namespace Sys2Proof.Machine

variable (s : State)

/-! State.setV -/

@[simp] theorem State.setV_v (x : Reg) (b : Byte) : (s.setV x b).v = s.v.set x b := rfl
@[simp] theorem State.setV_index (x : Reg) (b : Byte) : (s.setV x b).index = s.index := rfl
@[simp] theorem State.setV_pc (x : Reg) (b : Byte) : (s.setV x b).pc = s.pc := rfl
@[simp] theorem State.setV_sp (x : Reg) (b : Byte) : (s.setV x b).sp = s.sp := rfl
@[simp] theorem State.setV_stack (x : Reg) (b : Byte) : (s.setV x b).stack = s.stack := rfl
@[simp] theorem State.setV_dt (x : Reg) (b : Byte) : (s.setV x b).dt = s.dt := rfl
@[simp] theorem State.setV_st (x : Reg) (b : Byte) : (s.setV x b).st = s.st := rfl
@[simp] theorem State.setV_mem (x : Reg) (b : Byte) : (s.setV x b).mem = s.mem := rfl
@[simp] theorem State.setV_fb (x : Reg) (b : Byte) : (s.setV x b).fb = s.fb := rfl
@[simp] theorem State.setV_key (x : Reg) (b : Byte) : (s.setV x b).key = s.key := rfl
@[simp] theorem State.setV_fault (x : Reg) (b : Byte) : (s.setV x b).fault = s.fault := rfl
@[simp] theorem State.setV_rndIn (x : Reg) (b : Byte) : (s.setV x b).rndIn = s.rndIn := rfl
@[simp] theorem State.setV_draws (x : Reg) (b : Byte) : (s.setV x b).draws = s.draws := rfl

/-! State.setRegs -/

@[simp] theorem State.setRegs_v (w : Vector Byte 16) : (s.setRegs w).v = w := rfl
@[simp] theorem State.setRegs_index (w : Vector Byte 16) : (s.setRegs w).index = s.index := rfl
@[simp] theorem State.setRegs_pc (w : Vector Byte 16) : (s.setRegs w).pc = s.pc := rfl
@[simp] theorem State.setRegs_sp (w : Vector Byte 16) : (s.setRegs w).sp = s.sp := rfl
@[simp] theorem State.setRegs_stack (w : Vector Byte 16) : (s.setRegs w).stack = s.stack := rfl
@[simp] theorem State.setRegs_dt (w : Vector Byte 16) : (s.setRegs w).dt = s.dt := rfl
@[simp] theorem State.setRegs_st (w : Vector Byte 16) : (s.setRegs w).st = s.st := rfl
@[simp] theorem State.setRegs_mem (w : Vector Byte 16) : (s.setRegs w).mem = s.mem := rfl
@[simp] theorem State.setRegs_fb (w : Vector Byte 16) : (s.setRegs w).fb = s.fb := rfl
@[simp] theorem State.setRegs_key (w : Vector Byte 16) : (s.setRegs w).key = s.key := rfl
@[simp] theorem State.setRegs_fault (w : Vector Byte 16) : (s.setRegs w).fault = s.fault := rfl
@[simp] theorem State.setRegs_rndIn (w : Vector Byte 16) : (s.setRegs w).rndIn = s.rndIn := rfl
@[simp] theorem State.setRegs_draws (w : Vector Byte 16) : (s.setRegs w).draws = s.draws := rfl

/-! State.setIndex -/

@[simp] theorem State.setIndex_v (w : Word) : (s.setIndex w).v = s.v := rfl
@[simp] theorem State.setIndex_index (w : Word) : (s.setIndex w).index = w := rfl
@[simp] theorem State.setIndex_pc (w : Word) : (s.setIndex w).pc = s.pc := rfl
@[simp] theorem State.setIndex_sp (w : Word) : (s.setIndex w).sp = s.sp := rfl
@[simp] theorem State.setIndex_stack (w : Word) : (s.setIndex w).stack = s.stack := rfl
@[simp] theorem State.setIndex_dt (w : Word) : (s.setIndex w).dt = s.dt := rfl
@[simp] theorem State.setIndex_st (w : Word) : (s.setIndex w).st = s.st := rfl
@[simp] theorem State.setIndex_mem (w : Word) : (s.setIndex w).mem = s.mem := rfl
@[simp] theorem State.setIndex_fb (w : Word) : (s.setIndex w).fb = s.fb := rfl
@[simp] theorem State.setIndex_key (w : Word) : (s.setIndex w).key = s.key := rfl
@[simp] theorem State.setIndex_fault (w : Word) : (s.setIndex w).fault = s.fault := rfl
@[simp] theorem State.setIndex_rndIn (w : Word) : (s.setIndex w).rndIn = s.rndIn := rfl
@[simp] theorem State.setIndex_draws (w : Word) : (s.setIndex w).draws = s.draws := rfl

/-! State.setPc -/

@[simp] theorem State.setPc_v (w : Word) : (s.setPc w).v = s.v := rfl
@[simp] theorem State.setPc_index (w : Word) : (s.setPc w).index = s.index := rfl
@[simp] theorem State.setPc_pc (w : Word) : (s.setPc w).pc = w := rfl
@[simp] theorem State.setPc_sp (w : Word) : (s.setPc w).sp = s.sp := rfl
@[simp] theorem State.setPc_stack (w : Word) : (s.setPc w).stack = s.stack := rfl
@[simp] theorem State.setPc_dt (w : Word) : (s.setPc w).dt = s.dt := rfl
@[simp] theorem State.setPc_st (w : Word) : (s.setPc w).st = s.st := rfl
@[simp] theorem State.setPc_mem (w : Word) : (s.setPc w).mem = s.mem := rfl
@[simp] theorem State.setPc_fb (w : Word) : (s.setPc w).fb = s.fb := rfl
@[simp] theorem State.setPc_key (w : Word) : (s.setPc w).key = s.key := rfl
@[simp] theorem State.setPc_fault (w : Word) : (s.setPc w).fault = s.fault := rfl
@[simp] theorem State.setPc_rndIn (w : Word) : (s.setPc w).rndIn = s.rndIn := rfl
@[simp] theorem State.setPc_draws (w : Word) : (s.setPc w).draws = s.draws := rfl

/-! State.setSp -/

@[simp] theorem State.setSp_v (n : Fin 17) : (s.setSp n).v = s.v := rfl
@[simp] theorem State.setSp_index (n : Fin 17) : (s.setSp n).index = s.index := rfl
@[simp] theorem State.setSp_pc (n : Fin 17) : (s.setSp n).pc = s.pc := rfl
@[simp] theorem State.setSp_sp (n : Fin 17) : (s.setSp n).sp = n := rfl
@[simp] theorem State.setSp_stack (n : Fin 17) : (s.setSp n).stack = s.stack := rfl
@[simp] theorem State.setSp_dt (n : Fin 17) : (s.setSp n).dt = s.dt := rfl
@[simp] theorem State.setSp_st (n : Fin 17) : (s.setSp n).st = s.st := rfl
@[simp] theorem State.setSp_mem (n : Fin 17) : (s.setSp n).mem = s.mem := rfl
@[simp] theorem State.setSp_fb (n : Fin 17) : (s.setSp n).fb = s.fb := rfl
@[simp] theorem State.setSp_key (n : Fin 17) : (s.setSp n).key = s.key := rfl
@[simp] theorem State.setSp_fault (n : Fin 17) : (s.setSp n).fault = s.fault := rfl
@[simp] theorem State.setSp_rndIn (n : Fin 17) : (s.setSp n).rndIn = s.rndIn := rfl
@[simp] theorem State.setSp_draws (n : Fin 17) : (s.setSp n).draws = s.draws := rfl

/-! State.setStack -/

@[simp] theorem State.setStack_v (i : Fin 16) (w : Word) : (s.setStack i w).v = s.v := rfl
@[simp] theorem State.setStack_index (i : Fin 16) (w : Word) : (s.setStack i w).index = s.index := rfl
@[simp] theorem State.setStack_pc (i : Fin 16) (w : Word) : (s.setStack i w).pc = s.pc := rfl
@[simp] theorem State.setStack_sp (i : Fin 16) (w : Word) : (s.setStack i w).sp = s.sp := rfl
@[simp] theorem State.setStack_stack (i : Fin 16) (w : Word) : (s.setStack i w).stack = s.stack.set i w := rfl
@[simp] theorem State.setStack_dt (i : Fin 16) (w : Word) : (s.setStack i w).dt = s.dt := rfl
@[simp] theorem State.setStack_st (i : Fin 16) (w : Word) : (s.setStack i w).st = s.st := rfl
@[simp] theorem State.setStack_mem (i : Fin 16) (w : Word) : (s.setStack i w).mem = s.mem := rfl
@[simp] theorem State.setStack_fb (i : Fin 16) (w : Word) : (s.setStack i w).fb = s.fb := rfl
@[simp] theorem State.setStack_key (i : Fin 16) (w : Word) : (s.setStack i w).key = s.key := rfl
@[simp] theorem State.setStack_fault (i : Fin 16) (w : Word) : (s.setStack i w).fault = s.fault := rfl
@[simp] theorem State.setStack_rndIn (i : Fin 16) (w : Word) : (s.setStack i w).rndIn = s.rndIn := rfl
@[simp] theorem State.setStack_draws (i : Fin 16) (w : Word) : (s.setStack i w).draws = s.draws := rfl

/-! State.setDt -/

@[simp] theorem State.setDt_v (b : Byte) : (s.setDt b).v = s.v := rfl
@[simp] theorem State.setDt_index (b : Byte) : (s.setDt b).index = s.index := rfl
@[simp] theorem State.setDt_pc (b : Byte) : (s.setDt b).pc = s.pc := rfl
@[simp] theorem State.setDt_sp (b : Byte) : (s.setDt b).sp = s.sp := rfl
@[simp] theorem State.setDt_stack (b : Byte) : (s.setDt b).stack = s.stack := rfl
@[simp] theorem State.setDt_dt (b : Byte) : (s.setDt b).dt = b := rfl
@[simp] theorem State.setDt_st (b : Byte) : (s.setDt b).st = s.st := rfl
@[simp] theorem State.setDt_mem (b : Byte) : (s.setDt b).mem = s.mem := rfl
@[simp] theorem State.setDt_fb (b : Byte) : (s.setDt b).fb = s.fb := rfl
@[simp] theorem State.setDt_key (b : Byte) : (s.setDt b).key = s.key := rfl
@[simp] theorem State.setDt_fault (b : Byte) : (s.setDt b).fault = s.fault := rfl
@[simp] theorem State.setDt_rndIn (b : Byte) : (s.setDt b).rndIn = s.rndIn := rfl
@[simp] theorem State.setDt_draws (b : Byte) : (s.setDt b).draws = s.draws := rfl

/-! State.setSt -/

@[simp] theorem State.setSt_v (b : Byte) : (s.setSt b).v = s.v := rfl
@[simp] theorem State.setSt_index (b : Byte) : (s.setSt b).index = s.index := rfl
@[simp] theorem State.setSt_pc (b : Byte) : (s.setSt b).pc = s.pc := rfl
@[simp] theorem State.setSt_sp (b : Byte) : (s.setSt b).sp = s.sp := rfl
@[simp] theorem State.setSt_stack (b : Byte) : (s.setSt b).stack = s.stack := rfl
@[simp] theorem State.setSt_dt (b : Byte) : (s.setSt b).dt = s.dt := rfl
@[simp] theorem State.setSt_st (b : Byte) : (s.setSt b).st = b := rfl
@[simp] theorem State.setSt_mem (b : Byte) : (s.setSt b).mem = s.mem := rfl
@[simp] theorem State.setSt_fb (b : Byte) : (s.setSt b).fb = s.fb := rfl
@[simp] theorem State.setSt_key (b : Byte) : (s.setSt b).key = s.key := rfl
@[simp] theorem State.setSt_fault (b : Byte) : (s.setSt b).fault = s.fault := rfl
@[simp] theorem State.setSt_rndIn (b : Byte) : (s.setSt b).rndIn = s.rndIn := rfl
@[simp] theorem State.setSt_draws (b : Byte) : (s.setSt b).draws = s.draws := rfl

/-! State.setMem -/

@[simp] theorem State.setMem_v (m : Memory) : (s.setMem m).v = s.v := rfl
@[simp] theorem State.setMem_index (m : Memory) : (s.setMem m).index = s.index := rfl
@[simp] theorem State.setMem_pc (m : Memory) : (s.setMem m).pc = s.pc := rfl
@[simp] theorem State.setMem_sp (m : Memory) : (s.setMem m).sp = s.sp := rfl
@[simp] theorem State.setMem_stack (m : Memory) : (s.setMem m).stack = s.stack := rfl
@[simp] theorem State.setMem_dt (m : Memory) : (s.setMem m).dt = s.dt := rfl
@[simp] theorem State.setMem_st (m : Memory) : (s.setMem m).st = s.st := rfl
@[simp] theorem State.setMem_mem (m : Memory) : (s.setMem m).mem = m := rfl
@[simp] theorem State.setMem_fb (m : Memory) : (s.setMem m).fb = s.fb := rfl
@[simp] theorem State.setMem_key (m : Memory) : (s.setMem m).key = s.key := rfl
@[simp] theorem State.setMem_fault (m : Memory) : (s.setMem m).fault = s.fault := rfl
@[simp] theorem State.setMem_rndIn (m : Memory) : (s.setMem m).rndIn = s.rndIn := rfl
@[simp] theorem State.setMem_draws (m : Memory) : (s.setMem m).draws = s.draws := rfl

/-! State.setFb -/

@[simp] theorem State.setFb_v (f : Screen) : (s.setFb f).v = s.v := rfl
@[simp] theorem State.setFb_index (f : Screen) : (s.setFb f).index = s.index := rfl
@[simp] theorem State.setFb_pc (f : Screen) : (s.setFb f).pc = s.pc := rfl
@[simp] theorem State.setFb_sp (f : Screen) : (s.setFb f).sp = s.sp := rfl
@[simp] theorem State.setFb_stack (f : Screen) : (s.setFb f).stack = s.stack := rfl
@[simp] theorem State.setFb_dt (f : Screen) : (s.setFb f).dt = s.dt := rfl
@[simp] theorem State.setFb_st (f : Screen) : (s.setFb f).st = s.st := rfl
@[simp] theorem State.setFb_mem (f : Screen) : (s.setFb f).mem = s.mem := rfl
@[simp] theorem State.setFb_fb (f : Screen) : (s.setFb f).fb = f := rfl
@[simp] theorem State.setFb_key (f : Screen) : (s.setFb f).key = s.key := rfl
@[simp] theorem State.setFb_fault (f : Screen) : (s.setFb f).fault = s.fault := rfl
@[simp] theorem State.setFb_rndIn (f : Screen) : (s.setFb f).rndIn = s.rndIn := rfl
@[simp] theorem State.setFb_draws (f : Screen) : (s.setFb f).draws = s.draws := rfl

/-! State.setKey -/

@[simp] theorem State.setKey_v (i : Fin 16) (b : Bool) : (s.setKey i b).v = s.v := rfl
@[simp] theorem State.setKey_index (i : Fin 16) (b : Bool) : (s.setKey i b).index = s.index := rfl
@[simp] theorem State.setKey_pc (i : Fin 16) (b : Bool) : (s.setKey i b).pc = s.pc := rfl
@[simp] theorem State.setKey_sp (i : Fin 16) (b : Bool) : (s.setKey i b).sp = s.sp := rfl
@[simp] theorem State.setKey_stack (i : Fin 16) (b : Bool) : (s.setKey i b).stack = s.stack := rfl
@[simp] theorem State.setKey_dt (i : Fin 16) (b : Bool) : (s.setKey i b).dt = s.dt := rfl
@[simp] theorem State.setKey_st (i : Fin 16) (b : Bool) : (s.setKey i b).st = s.st := rfl
@[simp] theorem State.setKey_mem (i : Fin 16) (b : Bool) : (s.setKey i b).mem = s.mem := rfl
@[simp] theorem State.setKey_fb (i : Fin 16) (b : Bool) : (s.setKey i b).fb = s.fb := rfl
@[simp] theorem State.setKey_key (i : Fin 16) (b : Bool) : (s.setKey i b).key = s.key.set i b := rfl
@[simp] theorem State.setKey_fault (i : Fin 16) (b : Bool) : (s.setKey i b).fault = s.fault := rfl
@[simp] theorem State.setKey_rndIn (i : Fin 16) (b : Bool) : (s.setKey i b).rndIn = s.rndIn := rfl
@[simp] theorem State.setKey_draws (i : Fin 16) (b : Bool) : (s.setKey i b).draws = s.draws := rfl

/-! State.setFault -/

@[simp] theorem State.setFault_v (f : Option FaultRecord) : (s.setFault f).v = s.v := rfl
@[simp] theorem State.setFault_index (f : Option FaultRecord) : (s.setFault f).index = s.index := rfl
@[simp] theorem State.setFault_pc (f : Option FaultRecord) : (s.setFault f).pc = s.pc := rfl
@[simp] theorem State.setFault_sp (f : Option FaultRecord) : (s.setFault f).sp = s.sp := rfl
@[simp] theorem State.setFault_stack (f : Option FaultRecord) : (s.setFault f).stack = s.stack := rfl
@[simp] theorem State.setFault_dt (f : Option FaultRecord) : (s.setFault f).dt = s.dt := rfl
@[simp] theorem State.setFault_st (f : Option FaultRecord) : (s.setFault f).st = s.st := rfl
@[simp] theorem State.setFault_mem (f : Option FaultRecord) : (s.setFault f).mem = s.mem := rfl
@[simp] theorem State.setFault_fb (f : Option FaultRecord) : (s.setFault f).fb = s.fb := rfl
@[simp] theorem State.setFault_key (f : Option FaultRecord) : (s.setFault f).key = s.key := rfl
@[simp] theorem State.setFault_fault (f : Option FaultRecord) : (s.setFault f).fault = f := rfl
@[simp] theorem State.setFault_rndIn (f : Option FaultRecord) : (s.setFault f).rndIn = s.rndIn := rfl
@[simp] theorem State.setFault_draws (f : Option FaultRecord) : (s.setFault f).draws = s.draws := rfl

/-! State.setRndIn -/

@[simp] theorem State.setRndIn_v (r : Option Byte) : (s.setRndIn r).v = s.v := rfl
@[simp] theorem State.setRndIn_index (r : Option Byte) : (s.setRndIn r).index = s.index := rfl
@[simp] theorem State.setRndIn_pc (r : Option Byte) : (s.setRndIn r).pc = s.pc := rfl
@[simp] theorem State.setRndIn_sp (r : Option Byte) : (s.setRndIn r).sp = s.sp := rfl
@[simp] theorem State.setRndIn_stack (r : Option Byte) : (s.setRndIn r).stack = s.stack := rfl
@[simp] theorem State.setRndIn_dt (r : Option Byte) : (s.setRndIn r).dt = s.dt := rfl
@[simp] theorem State.setRndIn_st (r : Option Byte) : (s.setRndIn r).st = s.st := rfl
@[simp] theorem State.setRndIn_mem (r : Option Byte) : (s.setRndIn r).mem = s.mem := rfl
@[simp] theorem State.setRndIn_fb (r : Option Byte) : (s.setRndIn r).fb = s.fb := rfl
@[simp] theorem State.setRndIn_key (r : Option Byte) : (s.setRndIn r).key = s.key := rfl
@[simp] theorem State.setRndIn_fault (r : Option Byte) : (s.setRndIn r).fault = s.fault := rfl
@[simp] theorem State.setRndIn_rndIn (r : Option Byte) : (s.setRndIn r).rndIn = r := rfl
@[simp] theorem State.setRndIn_draws (r : Option Byte) : (s.setRndIn r).draws = s.draws := rfl

/-! State.countDraw -/

@[simp] theorem State.countDraw_v : (s.countDraw).v = s.v := rfl
@[simp] theorem State.countDraw_index : (s.countDraw).index = s.index := rfl
@[simp] theorem State.countDraw_pc : (s.countDraw).pc = s.pc := rfl
@[simp] theorem State.countDraw_sp : (s.countDraw).sp = s.sp := rfl
@[simp] theorem State.countDraw_stack : (s.countDraw).stack = s.stack := rfl
@[simp] theorem State.countDraw_dt : (s.countDraw).dt = s.dt := rfl
@[simp] theorem State.countDraw_st : (s.countDraw).st = s.st := rfl
@[simp] theorem State.countDraw_mem : (s.countDraw).mem = s.mem := rfl
@[simp] theorem State.countDraw_fb : (s.countDraw).fb = s.fb := rfl
@[simp] theorem State.countDraw_key : (s.countDraw).key = s.key := rfl
@[simp] theorem State.countDraw_fault : (s.countDraw).fault = s.fault := rfl
@[simp] theorem State.countDraw_rndIn : (s.countDraw).rndIn = s.rndIn := rfl
@[simp] theorem State.countDraw_draws : (s.countDraw).draws = s.draws + 1 := rfl

/-! State.latch -/

@[simp] theorem State.latch_v (c : Cause) (a w : Word) : (s.latch c a w).v = s.v := rfl
@[simp] theorem State.latch_index (c : Cause) (a w : Word) : (s.latch c a w).index = s.index := rfl
@[simp] theorem State.latch_pc (c : Cause) (a w : Word) : (s.latch c a w).pc = s.pc := rfl
@[simp] theorem State.latch_sp (c : Cause) (a w : Word) : (s.latch c a w).sp = s.sp := rfl
@[simp] theorem State.latch_stack (c : Cause) (a w : Word) : (s.latch c a w).stack = s.stack := rfl
@[simp] theorem State.latch_dt (c : Cause) (a w : Word) : (s.latch c a w).dt = s.dt := rfl
@[simp] theorem State.latch_st (c : Cause) (a w : Word) : (s.latch c a w).st = s.st := rfl
@[simp] theorem State.latch_mem (c : Cause) (a w : Word) : (s.latch c a w).mem = s.mem := rfl
@[simp] theorem State.latch_fb (c : Cause) (a w : Word) : (s.latch c a w).fb = s.fb := rfl
@[simp] theorem State.latch_key (c : Cause) (a w : Word) : (s.latch c a w).key = s.key := rfl
@[simp] theorem State.latch_fault (c : Cause) (a w : Word) : (s.latch c a w).fault = some ⟨c, a, w⟩ := rfl
@[simp] theorem State.latch_rndIn (c : Cause) (a w : Word) : (s.latch c a w).rndIn = s.rndIn := rfl
@[simp] theorem State.latch_draws (c : Cause) (a w : Word) : (s.latch c a w).draws = s.draws := rfl

/-! State.bumpIndex -/

@[simp] theorem State.bumpIndex_v (x : Reg) : (s.bumpIndex x).v = s.v := rfl
@[simp] theorem State.bumpIndex_index (x : Reg) : (s.bumpIndex x).index = s.index + BitVec.ofNat 16 (x.val + 1) := rfl
@[simp] theorem State.bumpIndex_pc (x : Reg) : (s.bumpIndex x).pc = s.pc := rfl
@[simp] theorem State.bumpIndex_sp (x : Reg) : (s.bumpIndex x).sp = s.sp := rfl
@[simp] theorem State.bumpIndex_stack (x : Reg) : (s.bumpIndex x).stack = s.stack := rfl
@[simp] theorem State.bumpIndex_dt (x : Reg) : (s.bumpIndex x).dt = s.dt := rfl
@[simp] theorem State.bumpIndex_st (x : Reg) : (s.bumpIndex x).st = s.st := rfl
@[simp] theorem State.bumpIndex_mem (x : Reg) : (s.bumpIndex x).mem = s.mem := rfl
@[simp] theorem State.bumpIndex_fb (x : Reg) : (s.bumpIndex x).fb = s.fb := rfl
@[simp] theorem State.bumpIndex_key (x : Reg) : (s.bumpIndex x).key = s.key := rfl
@[simp] theorem State.bumpIndex_fault (x : Reg) : (s.bumpIndex x).fault = s.fault := rfl
@[simp] theorem State.bumpIndex_rndIn (x : Reg) : (s.bumpIndex x).rndIn = s.rndIn := rfl
@[simp] theorem State.bumpIndex_draws (x : Reg) : (s.bumpIndex x).draws = s.draws := rfl

/-! State.loadFirst -/

@[simp] theorem State.loadFirst_v (bs : List Byte) : (s.loadFirst bs).v = Vector.ofFn fun r => (bs[r.val]?).getD s.v[r] := rfl
@[simp] theorem State.loadFirst_index (bs : List Byte) : (s.loadFirst bs).index = s.index := by rw [State.loadFirst, State.setRegs_index]
@[simp] theorem State.loadFirst_pc (bs : List Byte) : (s.loadFirst bs).pc = s.pc := by rw [State.loadFirst, State.setRegs_pc]
@[simp] theorem State.loadFirst_sp (bs : List Byte) : (s.loadFirst bs).sp = s.sp := by rw [State.loadFirst, State.setRegs_sp]
@[simp] theorem State.loadFirst_stack (bs : List Byte) : (s.loadFirst bs).stack = s.stack := by rw [State.loadFirst, State.setRegs_stack]
@[simp] theorem State.loadFirst_dt (bs : List Byte) : (s.loadFirst bs).dt = s.dt := by rw [State.loadFirst, State.setRegs_dt]
@[simp] theorem State.loadFirst_st (bs : List Byte) : (s.loadFirst bs).st = s.st := by rw [State.loadFirst, State.setRegs_st]
@[simp] theorem State.loadFirst_mem (bs : List Byte) : (s.loadFirst bs).mem = s.mem := by rw [State.loadFirst, State.setRegs_mem]
@[simp] theorem State.loadFirst_fb (bs : List Byte) : (s.loadFirst bs).fb = s.fb := by rw [State.loadFirst, State.setRegs_fb]
@[simp] theorem State.loadFirst_key (bs : List Byte) : (s.loadFirst bs).key = s.key := by rw [State.loadFirst, State.setRegs_key]
@[simp] theorem State.loadFirst_fault (bs : List Byte) : (s.loadFirst bs).fault = s.fault := by rw [State.loadFirst, State.setRegs_fault]
@[simp] theorem State.loadFirst_rndIn (bs : List Byte) : (s.loadFirst bs).rndIn = s.rndIn := by rw [State.loadFirst, State.setRegs_rndIn]
@[simp] theorem State.loadFirst_draws (bs : List Byte) : (s.loadFirst bs).draws = s.draws := by rw [State.loadFirst, State.setRegs_draws]

/-! State.setResultAndFlag -/

@[simp] theorem State.setResultAndFlag_v (x : Reg) (b f : Byte) : (s.setResultAndFlag x b f).v = (s.v.set x b).set 15 f := rfl
@[simp] theorem State.setResultAndFlag_index (x : Reg) (b f : Byte) : (s.setResultAndFlag x b f).index = s.index := rfl
@[simp] theorem State.setResultAndFlag_pc (x : Reg) (b f : Byte) : (s.setResultAndFlag x b f).pc = s.pc := rfl
@[simp] theorem State.setResultAndFlag_sp (x : Reg) (b f : Byte) : (s.setResultAndFlag x b f).sp = s.sp := rfl
@[simp] theorem State.setResultAndFlag_stack (x : Reg) (b f : Byte) : (s.setResultAndFlag x b f).stack = s.stack := rfl
@[simp] theorem State.setResultAndFlag_dt (x : Reg) (b f : Byte) : (s.setResultAndFlag x b f).dt = s.dt := rfl
@[simp] theorem State.setResultAndFlag_st (x : Reg) (b f : Byte) : (s.setResultAndFlag x b f).st = s.st := rfl
@[simp] theorem State.setResultAndFlag_mem (x : Reg) (b f : Byte) : (s.setResultAndFlag x b f).mem = s.mem := rfl
@[simp] theorem State.setResultAndFlag_fb (x : Reg) (b f : Byte) : (s.setResultAndFlag x b f).fb = s.fb := rfl
@[simp] theorem State.setResultAndFlag_key (x : Reg) (b f : Byte) : (s.setResultAndFlag x b f).key = s.key := rfl
@[simp] theorem State.setResultAndFlag_fault (x : Reg) (b f : Byte) : (s.setResultAndFlag x b f).fault = s.fault := rfl
@[simp] theorem State.setResultAndFlag_rndIn (x : Reg) (b f : Byte) : (s.setResultAndFlag x b f).rndIn = s.rndIn := rfl
@[simp] theorem State.setResultAndFlag_draws (x : Reg) (b f : Byte) : (s.setResultAndFlag x b f).draws = s.draws := rfl

/-! advance -/

@[simp] theorem advance_v : (advance s).v = s.v := rfl
@[simp] theorem advance_index : (advance s).index = s.index := rfl
@[simp] theorem advance_pc : (advance s).pc = s.pc + 2 := rfl
@[simp] theorem advance_sp : (advance s).sp = s.sp := rfl
@[simp] theorem advance_stack : (advance s).stack = s.stack := rfl
@[simp] theorem advance_dt : (advance s).dt = s.dt := rfl
@[simp] theorem advance_st : (advance s).st = s.st := rfl
@[simp] theorem advance_mem : (advance s).mem = s.mem := rfl
@[simp] theorem advance_fb : (advance s).fb = s.fb := rfl
@[simp] theorem advance_key : (advance s).key = s.key := rfl
@[simp] theorem advance_fault : (advance s).fault = s.fault := rfl
@[simp] theorem advance_rndIn : (advance s).rndIn = s.rndIn := rfl
@[simp] theorem advance_draws : (advance s).draws = s.draws := rfl

end Sys2Proof.Machine
end

