-- ==== Sys2Proof/Laws/Registers.lean ====
section
/-! SUPPORT. Reading the V registers and the stack after an update, and what reading operands amounts to. -/

namespace Sys2Proof.Machine

/-- A register after a register write. -/
theorem State.setV_get (s : State) (x : Reg) (b : Byte) (r : Reg) :
    (s.setV x b).v[r] = if r = x then b else s.v[r] := by
  simp [State.setV, Vector.getElem_set, Fin.ext_iff, eq_comm]

/-- A register after a result and a flag: the flag wins in VF (R165). -/
theorem State.setResultAndFlag_get (s : State) (x : Reg) (b f : Byte) (r : Reg) :
    (s.setResultAndFlag x b f).v[r] = if r = 15 then f else if r = x then b else s.v[r] := by
  simp only [State.setResultAndFlag, State.setV_get, VF]

/-- A register after load-registers' bytes: the listed ones are loaded, the others kept (R185). -/
theorem State.loadFirst_get (s : State) (bs : List Byte) (r : Reg) :
    (s.loadFirst bs).v[r] = (bs[r.val]?).getD s.v[r] := by
  simp [State.loadFirst, State.setRegs]

/-- A stack entry after a stack write. -/
theorem State.setStack_get (s : State) (i : Fin 16) (w : Word) (j : Fin 16) :
    (s.setStack i w).stack[j] = if j = i then w else s.stack[j] := by
  simp [State.setStack, Vector.getElem_set, Fin.ext_iff, eq_comm]

/-- A key flag after a write of one (R261). -/
theorem State.setKey_get (s : State) (i : Fin 16) (b : Bool) (j : Fin 16) :
    (s.setKey i b).key[j] = if j = i then b else s.key[j] := by
  simp [State.setKey, Vector.getElem_set, Fin.ext_iff, eq_comm]

/-- V0 to VX are X+1 bytes (R184). -/
@[simp] theorem State.firstRegs_length (s : State) (x : Reg) : (s.firstRegs x).length = x.val + 1 := by
  simp [State.firstRegs]

/-- Byte `i` of V0 to VX is V[i] (R184). -/
theorem State.firstRegs_get (s : State) (x r : Reg) (h : r.val ≤ x.val) : (s.firstRegs x)[r.val]? = some s.v[r] := by
  simp [State.firstRegs, List.getElem?_take]; omega

/-- The address field as a number (R97). -/
@[simp] theorem addrWord_toNat (nnn : Addr) : (addrWord nnn).toNat = nnn.toNat := by
  have := nnn.isLt
  simp [addrWord]; omega

/-- A zero-extended byte as a number (R12). -/
@[simp] theorem byteWord_toNat (b : Byte) : (byteWord b).toNat = b.toNat := by
  have := b.isLt
  simp [byteWord]; omega

/-- The sum as a number (R163). -/
@[simp] theorem addResult_toNat (a b : Byte) : (addResult a b).toNat = (a.toNat + b.toNat) % 256 := by
  simp [addResult]

/-- The difference as a number (R163). -/
@[simp] theorem subResult_toNat (a b : Byte) : (subResult a b).toNat = (a.toNat + 256 - b.toNat) % 256 := by
  simp [subResult]

end Sys2Proof.Machine
end

