-- ==== Sys2Proof/Laws/Ops.lean ====
section
/-! SUPPORT. One lemma per shared operation: everything it can do. -/

namespace Sys2Proof.Machine

/-- A hard failure is a next state in which only the latch differs (R246, R248). -/
theorem raise_eq (c : Cause) (i : Instr) (s : State) : raise c i s = .next (s.setFault (some ⟨c, s.pc - 2, encode i⟩)) := rfl

/-- A skip moves `pc` by 2 or changes nothing (R134). -/
theorem skipIf_eq (c : Bool) (s : State) : skipIf c s = .next (s.setPc (if c then s.pc + 2 else s.pc)) := by
  cases c <;> rfl

/-- Room on the stack: the word goes to `stack[sp]`, then `sp` grows by one (R29). -/
theorem push_of_lt (w : Word) (s : State) (h : s.sp.val < 16) :
    push w s = some ((s.setStack ⟨s.sp.val, h⟩ w).setSp ⟨s.sp.val + 1, by omega⟩) := dif_pos h

/-- No room on the stack. -/
theorem push_full (w : Word) (s : State) (h : ¬ s.sp.val < 16) : push w s = none := dif_neg h

/-- A live entry: `sp` shrinks by one and the entry there is taken (R29). -/
theorem pop_of_pos (s : State) (h : 0 < s.sp.val) :
    pop s = some (s.stack[s.sp.val - 1]'(by omega), s.setSp ⟨s.sp.val - 1, by omega⟩) := dif_pos h

/-- An empty stack. -/
theorem pop_empty (s : State) (h : ¬ 0 < s.sp.val) : pop s = none := dif_neg h

/-- In bounds, the bytes at `I` (R68). -/
theorem loadAtIndex_in (n : Nat) (s : State) (h : InBounds s.index n) :
    loadAtIndex n s = some (s.mem.readBytes s.index.toNat n) := if_pos h

/-- Out of bounds, nothing is read (R68). -/
theorem loadAtIndex_out (n : Nat) (s : State) (h : ¬ InBounds s.index n) : loadAtIndex n s = none := if_neg h

/-- In bounds, the bytes go to memory from `I` up and nothing else changes (R68). -/
theorem storeAtIndex_in (bs : List Byte) (s : State) (h : InBounds s.index bs.length) :
    storeAtIndex bs s = some (s.setMem (s.mem.writeBytes s.index.toNat bs)) := if_pos h

/-- Out of bounds, nothing is written (R68). -/
theorem storeAtIndex_out (bs : List Byte) (s : State) (h : ¬ InBounds s.index bs.length) : storeAtIndex bs s = none :=
  if_neg h

/-- Bytes written from `I` up in bounds lie inside the 4096 bytes. -/
theorem InBounds.end_le {base : Word} {bs : List Byte} (h : InBounds base bs.length) (hne : bs ≠ []) :
    base.toNat + bs.length ≤ 4096 := by
  have := List.length_pos_iff.2 hne
  rcases h with h | h <;> omega

/-- A store at `I` keeps the canonical form of memory. -/
theorem storeAtIndex_wf {bs : List Byte} {s t : State} (h : storeAtIndex bs s = some t) (hw : s.mem.wf = true) :
    t.mem.wf = true := by
  unfold storeAtIndex at h
  split at h
  · next hb =>
    obtain rfl := Option.some.inj h
    rcases bs with _ | ⟨b, bs⟩
    · exact hw
    · exact Memory.wf_writeBytes _ hw (InBounds.end_le hb (by simp))
  · cases h

/-! ## Fetch and the cycle -/

/-- A fetch inside memory (R92). -/
theorem fetch_in (s : State) (h : s.pc.toNat ≤ 4094) :
    fetch s = some (wordOfBytes (s.mem.read s.pc.toNat) (s.mem.read (s.pc.toNat + 1))) := if_pos h

/-- A fetch outside memory (R69). -/
theorem fetch_out (s : State) (h : ¬ s.pc.toNat ≤ 4094) : fetch s = none := if_neg h

/-- Everything a step can do: stop on a set latch, latch a failed fetch, pass over an unknown word, or run the instruction
(R90, R91, R92, R103). -/
theorem step_cases (s : State) :
    (∃ f, s.fault = some f ∧ step s = .fault (.latched f.cause)) ∨
    (s.fault = none ∧ fetch s = none ∧ step s = .next (fetchFailed s)) ∨
    (∃ op, s.fault = none ∧ fetch s = some op ∧ decodeWord op = none ∧ step s = .next (advance s)) ∨
    (∃ op i, s.fault = none ∧ fetch s = some op ∧ decodeWord op = some i ∧ step s = exec i (advance s)) := by
  unfold step cycle
  rcases hf : s.fault with _ | f
  · rcases ho : fetch s with _ | op
    · exact .inr (.inl ⟨rfl, rfl, rfl⟩)
    · rcases hd : decodeWord op with _ | i
      · exact .inr (.inr (.inl ⟨op, rfl, rfl, hd, by simp [hd]⟩))
      · exact .inr (.inr (.inr ⟨op, i, rfl, rfl, hd, by simp [hd]⟩))
  · exact .inl ⟨f, rfl, rfl⟩

/-! ## The framebuffer -/

/-- One sprite bit: the pixel it lands on is toggled, every other pixel is kept (R201). -/
theorem drawPixel_pixel (x y : Nat) (p : Canvas) (i : Fin 64) (j : Fin 32) :
    (drawPixel x y p).fb[j][i] = (p.fb[j][i] ^^ (decide (i.val = x) && decide (j.val = y))) := by
  unfold drawPixel
  split
  · next h =>
    by_cases hj : j.val = y
    · subst hj
      by_cases hi : i.val = x
      · subst hi; simp
      · simp [Ne.symm hi, hi]
    · simp [Ne.symm hj, hj]
  · next h =>
    have h1 := i.isLt
    have h2 := j.isLt
    have : ¬ (i.val = x ∧ j.val = y) := by omega
    by_cases hi : i.val = x <;> simp_all

/-- One sprite bit: a collision if the pixel it lands on was on, or one was seen before (R201). -/
theorem drawPixel_hit (x y : Nat) (p : Canvas) :
    (drawPixel x y p).hit = true ↔ p.hit = true ∨ ∃ (i : Fin 64) (j : Fin 32), i.val = x ∧ j.val = y ∧ p.fb[j][i] = true := by
  unfold drawPixel
  split
  · next h =>
    simp only [Bool.or_eq_true]
    constructor
    · rintro (h1 | h1)
      · exact .inl h1
      · exact .inr ⟨⟨x, by omega⟩, ⟨y, by omega⟩, rfl, rfl, h1⟩
    · rintro (h1 | ⟨i, j, rfl, rfl, h1⟩)
      · exact .inl h1
      · exact .inr h1
  · next h =>
    constructor
    · exact .inl
    · rintro (h1 | ⟨i, j, rfl, rfl, h1⟩)
      · exact h1
      · omega

/-- Every pixel of the blank screen is off (R200). -/
theorem blankScreen_pixel (i : Fin 64) (j : Fin 32) : blankScreen[j][i] = false := by
  simp [blankScreen]

/-! ## Keys -/

/-- No key is found exactly when every flag is off (R222). -/
theorem lowestKey_none (k : Vector Bool 16) : lowestKey k = none ↔ ∀ i : Fin 16, k[i] = false := by
  simp [lowestKey]

/-- The key found is down, and every lower one is up (R222). -/
theorem lowestKey_some {k : Vector Bool 16} {i : Fin 16} (h : lowestKey k = some i) :
    k[i] = true ∧ ∀ j : Fin 16, j < i → k[j] = false := by
  unfold lowestKey at h
  obtain ⟨h1, as, bs, h2, h3⟩ := List.find?_eq_some_iff_append.1 h
  refine ⟨h1, fun j hj => ?_⟩
  have hm : j ∈ as := by
    have hs : (List.finRange 16).Pairwise (· < ·) := List.pairwise_lt_finRange 16
    have : j ∈ List.finRange 16 := List.mem_finRange j
    rw [h2] at this hs
    rcases List.mem_append.1 this with hm | hm
    · exact hm
    · rw [List.pairwise_append] at hs
      rcases List.mem_cons.1 hm with rfl | hm
      · exact absurd hj (lt_irrefl _)
      · exact absurd ((List.pairwise_cons.1 hs.2.1).1 j hm) (not_lt_of_gt hj)
  simpa using h3 j hm

/-! ## Commands -/

/-- Countdown as a number (R258). -/
theorem countDown_toNat (b : Byte) : (countDown b).toNat = b.toNat - 1 := by
  unfold countDown
  split
  · next h => subst h; rfl
  · next h =>
    have : b.toNat ≠ 0 := fun h0 => h (BitVec.eq_of_toNat_eq (by simpa using h0))
    have := b.isLt
    rw [BitVec.toNat_sub]
    simp
    omega

end Sys2Proof.Machine
end

