-- ==== Sys2Proof/Laws/PerInstr.lean ====
section
/-! SUPPORT. The per-instruction family RoundTrip: an instruction is well-formed, and decoding its own word gives it back. -/

namespace Sys2Proof.Laws.RoundTrip

/-- What is stated of each instruction, as syntax: its operands are in range, its word decodes to it, and so do the bytes of
its word, leaving what follows them. -/
def Statement (i : Instr) : Prop :=
  i.wellFormed = true ∧ decodeWord (encode i) = some i ∧ ∀ rest, decode (encodeBytes i ++ rest) = .ok (i, rest)

/-- The bytes decode as the word does (R65). -/
theorem of_word {i : Instr} (hw : i.wellFormed = true) (h : decodeWord (encode i) = some i) : Statement i :=
  ⟨hw, h, fun rest => by simp [encodeBytes, decode, wordOfBytes_high_low, h]⟩

theorem clearScreen : Statement .clearScreen :=
  of_word (by decide) (by decide)

theorem ret : Statement .ret :=
  of_word (by decide) (by decide)

theorem jump (nnn : Addr) : Statement (.jump nnn) :=
  of_word (by simp [Instr.wellFormed, Instr.operands, operandsAdmitted, OperandKind.admits, nnn.isLt])
    (by simp [encode, decodeWord,
      famOf_formatA, nnnOf_formatA])

theorem call (nnn : Addr) : Statement (.call nnn) :=
  of_word (by simp [Instr.wellFormed, Instr.operands, operandsAdmitted, OperandKind.admits, nnn.isLt])
    (by simp [encode, decodeWord,
      famOf_formatA, nnnOf_formatA])

theorem skipEqImm (x : Reg) (kk : Byte) : Statement (.skipEqImm x kk) :=
  of_word (by simp [Instr.wellFormed, Instr.operands, operandsAdmitted, OperandKind.admits, kk.isLt])
    (by simp [encode, decodeWord,
      famOf_formatXK, xOf_formatXK, kkOf_formatXK])

theorem skipNeqImm (x : Reg) (kk : Byte) : Statement (.skipNeqImm x kk) :=
  of_word (by simp [Instr.wellFormed, Instr.operands, operandsAdmitted, OperandKind.admits, kk.isLt])
    (by simp [encode, decodeWord,
      famOf_formatXK, xOf_formatXK, kkOf_formatXK])

theorem skipEqReg (x y : Reg) : Statement (.skipEqReg x y) :=
  of_word (by simp [Instr.wellFormed, Instr.operands, operandsAdmitted, OperandKind.admits])
    (by simp [encode, decodeWord,
      famOf_formatXYN, xOf_formatXYN, yOf_formatXYN, nOf_formatXYN])

theorem setImm (x : Reg) (kk : Byte) : Statement (.setImm x kk) :=
  of_word (by simp [Instr.wellFormed, Instr.operands, operandsAdmitted, OperandKind.admits, kk.isLt])
    (by simp [encode, decodeWord,
      famOf_formatXK, xOf_formatXK, kkOf_formatXK])

theorem addImm (x : Reg) (kk : Byte) : Statement (.addImm x kk) :=
  of_word (by simp [Instr.wellFormed, Instr.operands, operandsAdmitted, OperandKind.admits, kk.isLt])
    (by simp [encode, decodeWord,
      famOf_formatXK, xOf_formatXK, kkOf_formatXK])

theorem move (x y : Reg) : Statement (.move x y) :=
  of_word (by simp [Instr.wellFormed, Instr.operands, operandsAdmitted, OperandKind.admits])
    (by simp [encode, decodeWord, decodeAlu,
      famOf_formatXYN, xOf_formatXYN, yOf_formatXYN, nOf_formatXYN])

theorem orRegs (x y : Reg) : Statement (.orRegs x y) :=
  of_word (by simp [Instr.wellFormed, Instr.operands, operandsAdmitted, OperandKind.admits])
    (by simp [encode, decodeWord, decodeAlu,
      famOf_formatXYN, xOf_formatXYN, yOf_formatXYN, nOf_formatXYN])

theorem andRegs (x y : Reg) : Statement (.andRegs x y) :=
  of_word (by simp [Instr.wellFormed, Instr.operands, operandsAdmitted, OperandKind.admits])
    (by simp [encode, decodeWord, decodeAlu,
      famOf_formatXYN, xOf_formatXYN, yOf_formatXYN, nOf_formatXYN])

theorem xorRegs (x y : Reg) : Statement (.xorRegs x y) :=
  of_word (by simp [Instr.wellFormed, Instr.operands, operandsAdmitted, OperandKind.admits])
    (by simp [encode, decodeWord, decodeAlu,
      famOf_formatXYN, xOf_formatXYN, yOf_formatXYN, nOf_formatXYN])

theorem addRegs (x y : Reg) : Statement (.addRegs x y) :=
  of_word (by simp [Instr.wellFormed, Instr.operands, operandsAdmitted, OperandKind.admits])
    (by simp [encode, decodeWord, decodeAlu,
      famOf_formatXYN, xOf_formatXYN, yOf_formatXYN, nOf_formatXYN])

theorem subRegs (x y : Reg) : Statement (.subRegs x y) :=
  of_word (by simp [Instr.wellFormed, Instr.operands, operandsAdmitted, OperandKind.admits])
    (by simp [encode, decodeWord, decodeAlu,
      famOf_formatXYN, xOf_formatXYN, yOf_formatXYN, nOf_formatXYN])

theorem shiftRight (x y : Reg) : Statement (.shiftRight x y) :=
  of_word (by simp [Instr.wellFormed, Instr.operands, operandsAdmitted, OperandKind.admits])
    (by simp [encode, decodeWord, decodeAlu,
      famOf_formatXYN, xOf_formatXYN, yOf_formatXYN, nOf_formatXYN])

theorem subRegsReverse (x y : Reg) : Statement (.subRegsReverse x y) :=
  of_word (by simp [Instr.wellFormed, Instr.operands, operandsAdmitted, OperandKind.admits])
    (by simp [encode, decodeWord, decodeAlu,
      famOf_formatXYN, xOf_formatXYN, yOf_formatXYN, nOf_formatXYN])

theorem shiftLeft (x y : Reg) : Statement (.shiftLeft x y) :=
  of_word (by simp [Instr.wellFormed, Instr.operands, operandsAdmitted, OperandKind.admits])
    (by simp [encode, decodeWord, decodeAlu,
      famOf_formatXYN, xOf_formatXYN, yOf_formatXYN, nOf_formatXYN])

theorem skipNeqReg (x y : Reg) : Statement (.skipNeqReg x y) :=
  of_word (by simp [Instr.wellFormed, Instr.operands, operandsAdmitted, OperandKind.admits])
    (by simp [encode, decodeWord,
      famOf_formatXYN, xOf_formatXYN, yOf_formatXYN, nOf_formatXYN])

theorem setIndex (nnn : Addr) : Statement (.setIndex nnn) :=
  of_word (by simp [Instr.wellFormed, Instr.operands, operandsAdmitted, OperandKind.admits, nnn.isLt])
    (by simp [encode, decodeWord,
      famOf_formatA, nnnOf_formatA])

theorem jumpOffset (nnn : Addr) : Statement (.jumpOffset nnn) :=
  of_word (by simp [Instr.wellFormed, Instr.operands, operandsAdmitted, OperandKind.admits, nnn.isLt])
    (by simp [encode, decodeWord,
      famOf_formatA, nnnOf_formatA])

theorem randomMasked (x : Reg) (kk : Byte) : Statement (.randomMasked x kk) :=
  of_word (by simp [Instr.wellFormed, Instr.operands, operandsAdmitted, OperandKind.admits, kk.isLt])
    (by simp [encode, decodeWord,
      famOf_formatXK, xOf_formatXK, kkOf_formatXK])

theorem drawSprite (x y : Reg) (n : Height) : Statement (.drawSprite x y n) :=
  of_word (by simp [Instr.wellFormed, Instr.operands, operandsAdmitted, OperandKind.admits])
    (by simp [encode, decodeWord, heightOf,
      famOf_formatXYN, xOf_formatXYN, yOf_formatXYN, nOf_formatXYN])

theorem skipKeyDown (x : Reg) : Statement (.skipKeyDown x) :=
  of_word (by simp [Instr.wellFormed, Instr.operands, operandsAdmitted, OperandKind.admits])
    (by simp [encode, decodeWord, decodeKeys,
      famOf_formatXK, xOf_formatXK, kkOf_formatXK])

theorem skipKeyUp (x : Reg) : Statement (.skipKeyUp x) :=
  of_word (by simp [Instr.wellFormed, Instr.operands, operandsAdmitted, OperandKind.admits])
    (by simp [encode, decodeWord, decodeKeys,
      famOf_formatXK, xOf_formatXK, kkOf_formatXK])

theorem getDelay (x : Reg) : Statement (.getDelay x) :=
  of_word (by simp [Instr.wellFormed, Instr.operands, operandsAdmitted, OperandKind.admits])
    (by simp [encode, decodeWord, decodeMisc,
      famOf_formatXK, xOf_formatXK, kkOf_formatXK])

theorem waitKey (x : Reg) : Statement (.waitKey x) :=
  of_word (by simp [Instr.wellFormed, Instr.operands, operandsAdmitted, OperandKind.admits])
    (by simp [encode, decodeWord, decodeMisc,
      famOf_formatXK, xOf_formatXK, kkOf_formatXK])

theorem setDelay (x : Reg) : Statement (.setDelay x) :=
  of_word (by simp [Instr.wellFormed, Instr.operands, operandsAdmitted, OperandKind.admits])
    (by simp [encode, decodeWord, decodeMisc,
      famOf_formatXK, xOf_formatXK, kkOf_formatXK])

theorem setSound (x : Reg) : Statement (.setSound x) :=
  of_word (by simp [Instr.wellFormed, Instr.operands, operandsAdmitted, OperandKind.admits])
    (by simp [encode, decodeWord, decodeMisc,
      famOf_formatXK, xOf_formatXK, kkOf_formatXK])

theorem addIndex (x : Reg) : Statement (.addIndex x) :=
  of_word (by simp [Instr.wellFormed, Instr.operands, operandsAdmitted, OperandKind.admits])
    (by simp [encode, decodeWord, decodeMisc,
      famOf_formatXK, xOf_formatXK, kkOf_formatXK])

theorem spriteAddress (x : Reg) : Statement (.spriteAddress x) :=
  of_word (by simp [Instr.wellFormed, Instr.operands, operandsAdmitted, OperandKind.admits])
    (by simp [encode, decodeWord, decodeMisc,
      famOf_formatXK, xOf_formatXK, kkOf_formatXK])

theorem storeBcd (x : Reg) : Statement (.storeBcd x) :=
  of_word (by simp [Instr.wellFormed, Instr.operands, operandsAdmitted, OperandKind.admits])
    (by simp [encode, decodeWord, decodeMisc,
      famOf_formatXK, xOf_formatXK, kkOf_formatXK])

theorem storeRegs (x : Reg) : Statement (.storeRegs x) :=
  of_word (by simp [Instr.wellFormed, Instr.operands, operandsAdmitted, OperandKind.admits])
    (by simp [encode, decodeWord, decodeMisc,
      famOf_formatXK, xOf_formatXK, kkOf_formatXK])

theorem loadRegs (x : Reg) : Statement (.loadRegs x) :=
  of_word (by simp [Instr.wellFormed, Instr.operands, operandsAdmitted, OperandKind.admits])
    (by simp [encode, decodeWord, decodeMisc,
      famOf_formatXK, xOf_formatXK, kkOf_formatXK])

end Sys2Proof.Laws.RoundTrip
end

