-- ==== Sys2Proof/Tests/Slice0.lean ====
section
/-! SUPPORT. Tests: ill-formed operands refused, one word per instruction written out from the table of R98, single steps with
the expected results of `spec/95_test_vectors.md`, and a witness for every hypothesis of every statement. -/

namespace Sys2Proof.Tests

open Sys2Proof.Machine Sys2Proof.Claims

/-! ## WellFormed: an ill-formed operand for each check -/

theorem test_reg_16_refused : regOf? 16 = none ∧ regOf? 15 = some 15 := by decide
theorem test_addr_4096_refused : addrOf? 4096 = none ∧ addrOf? 4095 = some 0xFFF := by decide
theorem test_imm_256_refused : immOf? 256 = none ∧ immOf? 255 = some 0xFF := by decide
theorem test_height_16_refused : heightOf? 16 = none ∧ heightOf? 15 = some 15 := by decide
theorem test_operand_reg_refused : operandsAdmitted [(.reg, 3), (.reg, 16)] = false := by decide
theorem test_operand_addr_refused : operandsAdmitted [(.addr, 4096)] = false := by decide
theorem test_operand_imm_refused : operandsAdmitted [(.reg, 0), (.imm, 256)] = false := by decide
theorem test_operand_height_refused : operandsAdmitted [(.reg, 0), (.reg, 1), (.height, 16)] = false := by decide
theorem test_operands_admitted : Instr.wellFormed (.drawSprite 15 15 15) = true := by decide

/-! ## Decoding: a word of each row, nibble by nibble from R98, and the words beside it -/

theorem test_decode_clearScreen : decodeTableWord 16 0x00E0 = some (.clearScreen) := by decide
theorem test_decode_ret : decodeTableWord 16 0x00EE = some (.ret) := by decide
theorem test_decode_jump : decodeTableWord 16 0x1ABC = some (.jump 0xABC) := by decide
theorem test_decode_call : decodeTableWord 16 0x2ABC = some (.call 0xABC) := by decide
theorem test_decode_skipEqImm : decodeTableWord 16 0x31F0 = some (.skipEqImm 1 0xF0) := by decide
theorem test_decode_skipNeqImm : decodeTableWord 16 0x4E0D = some (.skipNeqImm 0xE 0x0D) := by decide
theorem test_decode_skipEqReg : decodeTableWord 16 0x5120 = some (.skipEqReg 1 2) := by decide
theorem test_decode_setImm : decodeTableWord 16 0x6FAB = some (.setImm 0xF 0xAB) := by decide
theorem test_decode_addImm : decodeTableWord 16 0x7580 = some (.addImm 5 0x80) := by decide
theorem test_decode_move : decodeTableWord 16 0x8120 = some (.move 1 2) := by decide
theorem test_decode_orRegs : decodeTableWord 16 0x8121 = some (.orRegs 1 2) := by decide
theorem test_decode_andRegs : decodeTableWord 16 0x8122 = some (.andRegs 1 2) := by decide
theorem test_decode_xorRegs : decodeTableWord 16 0x8123 = some (.xorRegs 1 2) := by decide
theorem test_decode_addRegs : decodeTableWord 16 0x8124 = some (.addRegs 1 2) := by decide
theorem test_decode_subRegs : decodeTableWord 16 0x8125 = some (.subRegs 1 2) := by decide
theorem test_decode_shiftRight : decodeTableWord 16 0x8126 = some (.shiftRight 1 2) := by decide
theorem test_decode_subRegsReverse : decodeTableWord 16 0x8127 = some (.subRegsReverse 1 2) := by decide
theorem test_decode_shiftLeft : decodeTableWord 16 0x812E = some (.shiftLeft 1 2) := by decide
theorem test_decode_skipNeqReg : decodeTableWord 16 0x9120 = some (.skipNeqReg 1 2) := by decide
theorem test_decode_setIndex : decodeTableWord 16 0xAFFF = some (.setIndex 0xFFF) := by decide
theorem test_decode_jumpOffset : decodeTableWord 16 0xB2FE = some (.jumpOffset 0x2FE) := by decide
theorem test_decode_randomMasked : decodeTableWord 16 0xC30F = some (.randomMasked 3 0x0F) := by decide
theorem test_decode_drawSprite : decodeTableWord 16 0xDAB5 = some (.drawSprite 0xA 0xB 5) := by decide
theorem test_decode_skipKeyDown : decodeTableWord 16 0xE19E = some (.skipKeyDown 1) := by decide
theorem test_decode_skipKeyUp : decodeTableWord 16 0xE1A1 = some (.skipKeyUp 1) := by decide
theorem test_decode_getDelay : decodeTableWord 16 0xF207 = some (.getDelay 2) := by decide
theorem test_decode_waitKey : decodeTableWord 16 0xF10A = some (.waitKey 1) := by decide
theorem test_decode_setDelay : decodeTableWord 16 0xF015 = some (.setDelay 0) := by decide
theorem test_decode_setSound : decodeTableWord 16 0xF018 = some (.setSound 0) := by decide
theorem test_decode_addIndex : decodeTableWord 16 0xF11E = some (.addIndex 1) := by decide
theorem test_decode_spriteAddress : decodeTableWord 16 0xF929 = some (.spriteAddress 9) := by decide
theorem test_decode_storeBcd : decodeTableWord 16 0xF333 = some (.storeBcd 3) := by decide
theorem test_decode_storeRegs : decodeTableWord 16 0xF155 = some (.storeRegs 1) := by decide
theorem test_decode_loadRegs : decodeTableWord 16 0xFF65 = some (.loadRegs 0xF) := by decide

theorem test_unknown_0000 : decodeTableWord 16 0x0000 = none := by decide
theorem test_unknown_5121 : decodeTableWord 16 0x5121 = none := by decide
theorem test_unknown_8128 : decodeTableWord 16 0x8128 = none ∧ decodeTableWord 16 0x812F = none := by decide
theorem test_unknown_9121 : decodeTableWord 16 0x9121 = none := by decide
theorem test_unknown_E19F : decodeTableWord 16 0xE19F = none := by decide
theorem test_unknown_F166 : decodeTableWord 16 0xF166 = none := by decide
theorem test_decode_two_bytes : decode [0x61, 0x2A, 0x77] = .ok (.setImm 1 0x2A, [0x77]) := by decide
theorem test_decode_one_byte : decode [0x61] = .error .truncated := by decide

/-! ## Single steps; each test names its vector of `spec/95_test_vectors.md` -/

/-- `s` with its `pc` at `pc` and the instruction word `w` there. -/
def placed (pc : Word) (w : Nat) (s : State) : State := (s.setPc pc).withFetchWord 16 w

/-- The state after one step has the property. -/
def after (s : State) (p : State → Bool) : Bool :=
  match step s with
  | .next t => p t
  | _ => false

/-- The reset state with two registers set. -/
def two (x : Reg) (a : Byte) (y : Reg) (b : Byte) : State := (State.reset.setV x a).setV y b

/-- F1 -/
theorem test_skip_eq_imm :
    after (placed 0x208 0x3000 State.reset) (fun t => decide (t.pc = 0x20C)) = true := by decide
/-- F2 -/
theorem test_skip_eq_imm_not :
    after (placed 0x208 0x3000 (State.reset.setV 0 1)) (fun t => decide (t.pc = 0x20A)) = true := by decide
/-- F3 -/
theorem test_skip_neq_imm :
    after (placed 0x300 0x4311 (State.reset.setV 3 0x10)) (fun t => decide (t.pc = 0x304)) = true := by decide
/-- F4 -/
theorem test_skip_neq_imm_not :
    after (placed 0x300 0x4310 (State.reset.setV 3 0x10)) (fun t => decide (t.pc = 0x302)) = true := by decide
/-- F5 -/
theorem test_skip_eq_reg :
    after (placed 0x200 0x5120 (two 1 7 2 7)) (fun t => decide (t.pc = 0x204)) = true := by decide
/-- F6 -/
theorem test_skip_eq_reg_not :
    after (placed 0x200 0x5120 (two 1 7 2 8)) (fun t => decide (t.pc = 0x202)) = true := by decide
/-- F8 -/
theorem test_skip_neq_reg :
    after (placed 0x200 0x9120 (two 1 7 2 8)) (fun t => decide (t.pc = 0x204)) = true := by decide
/-- F9 -/
theorem test_skip_neq_reg_same :
    after (placed 0x200 0x9440 (State.reset.setV 4 9)) (fun t => decide (t.pc = 0x202)) = true := by decide
/-- F10 -/
theorem test_skip_past_memory :
    after (placed 0xFFE 0x3000 State.reset) (fun t => decide (t.pc = 0x1002)) = true := by decide
/-- F12 -/
theorem test_jump : after (placed 0x200 0x1FFF State.reset) (fun t => decide (t.pc = 0x0FFF)) = true := by decide
/-- F15 -/
theorem test_call :
    after (placed 0x250 0x2300 (State.reset.setSp 15))
      (fun t => decide (t.stack[(15 : Fin 16)] = 0x252 ∧ t.sp = 16 ∧ t.pc = 0x300)) = true := by decide
/-- F16 -/
theorem test_call_full :
    after (placed 0x250 0x2300 (State.reset.setSp 16))
      (fun t => decide (t.fault = some ⟨.stackOverflow, 0x250, 0x2300⟩ ∧ t.sp = 16 ∧ t.pc = 0x252)) = true := by decide
/-- F17 -/
theorem test_return :
    after (placed 0x20C 0x00EE ((State.reset.setSp 1).setStack 0 0x206))
      (fun t => decide (t.sp = 0 ∧ t.pc = 0x206 ∧ t.stack[(0 : Fin 16)] = 0x206)) = true := by decide
/-- F18 -/
theorem test_return_empty :
    after (placed 0x204 0x00EE State.reset)
      (fun t => decide (t.fault = some ⟨.stackUnderflow, 0x204, 0x00EE⟩ ∧ t.sp = 0 ∧ t.pc = 0x206)) = true := by decide
/-- F20 -/
theorem test_jump_offset_top :
    after (placed 0x200 0xBFFF (State.reset.setV 0 0xFF)) (fun t => decide (t.pc = 0x10FE)) = true := by decide
/-- F21 -/
theorem test_jump_offset_v0 :
    after (placed 0x200 0xB2FE (two 0 2 2 0x50)) (fun t => decide (t.pc = 0x300)) = true := by decide
/-- AL1 -/
theorem test_set_imm :
    after (placed 0x200 0x6FAB State.reset) (fun t => decide (t.v[(15 : Reg)] = 0xAB)) = true := by decide
/-- AL2 -/
theorem test_add_imm_wraps :
    after (placed 0x200 0x7002 (two 0 0xFF 15 7))
      (fun t => decide (t.v[(0 : Reg)] = 1 ∧ t.v[(15 : Reg)] = 7)) = true := by decide
/-- AL5 -/
theorem test_move :
    after (placed 0x200 0x8120 (two 1 1 2 2))
      (fun t => decide (t.v[(1 : Reg)] = 2 ∧ t.v[(2 : Reg)] = 2)) = true := by decide
/-- AL6 -/
theorem test_or :
    after (placed 0x200 0x8121 ((two 1 0xF0 2 0x0F).setV 15 5))
      (fun t => decide (t.v[(1 : Reg)] = 0xFF ∧ t.v[(15 : Reg)] = 5)) = true := by decide
/-- AL7 -/
theorem test_and :
    after (placed 0x200 0x8122 ((two 1 0xF3 2 0x3C).setV 15 5))
      (fun t => decide (t.v[(1 : Reg)] = 0x30 ∧ t.v[(15 : Reg)] = 5)) = true := by decide
/-- AL8 -/
theorem test_xor :
    after (placed 0x200 0x8123 ((two 1 0xFF 2 0x0F).setV 15 5))
      (fun t => decide (t.v[(1 : Reg)] = 0xF0 ∧ t.v[(15 : Reg)] = 5)) = true := by decide
/-- AL14 -/
theorem test_add_carry :
    after (placed 0x200 0x8124 (two 1 0xC8 2 0x64))
      (fun t => decide (t.v[(1 : Reg)] = 0x2C ∧ t.v[(15 : Reg)] = 1)) = true := by decide
/-- AL17 -/
theorem test_add_flag_last :
    after (placed 0x200 0x8F14 (two 15 1 1 2)) (fun t => decide (t.v[(15 : Reg)] = 0)) = true := by decide
/-- AL21 -/
theorem test_sub_borrow :
    after (placed 0x200 0x8125 (two 1 5 2 0x0A))
      (fun t => decide (t.v[(1 : Reg)] = 0xFB ∧ t.v[(15 : Reg)] = 0)) = true := by decide
/-- AL22 -/
theorem test_sub_equal :
    after (placed 0x200 0x8125 (two 1 7 2 7))
      (fun t => decide (t.v[(1 : Reg)] = 0 ∧ t.v[(15 : Reg)] = 1)) = true := by decide
/-- AL28 -/
theorem test_shift_right_reads_vy :
    after (placed 0x200 0x8126 (two 1 0xAA 2 4))
      (fun t => decide (t.v[(1 : Reg)] = 2 ∧ t.v[(15 : Reg)] = 0 ∧ t.v[(2 : Reg)] = 4)) = true := by decide
/-- AL35 -/
theorem test_shift_right_from_vf :
    after (placed 0x200 0x81F6 (two 15 3 1 0x77))
      (fun t => decide (t.v[(1 : Reg)] = 1 ∧ t.v[(15 : Reg)] = 1)) = true := by decide
/-- AL36 -/
theorem test_sub_reverse :
    after (placed 0x200 0x8127 (two 1 5 2 0x0A))
      (fun t => decide (t.v[(1 : Reg)] = 5 ∧ t.v[(15 : Reg)] = 1)) = true := by decide
/-- AL37 -/
theorem test_sub_reverse_borrow :
    after (placed 0x200 0x8127 (two 1 0x0A 2 5))
      (fun t => decide (t.v[(1 : Reg)] = 0xFB ∧ t.v[(15 : Reg)] = 0)) = true := by decide
/-- AL41 -/
theorem test_shift_left :
    after (placed 0x200 0x812E (two 1 0 2 0xFF))
      (fun t => decide (t.v[(1 : Reg)] = 0xFE ∧ t.v[(15 : Reg)] = 1)) = true := by decide
/-- AL39 -/
theorem test_shift_left_no_flag :
    after (placed 0x200 0x812E (two 1 0 2 0x40))
      (fun t => decide (t.v[(1 : Reg)] = 0x80 ∧ t.v[(15 : Reg)] = 0)) = true := by decide
/-- AL45 -/
theorem test_random_masked :
    after ((placed 0x200 0xC3F0 State.reset).setRndIn (some 0xA5))
      (fun t => decide (t.v[(3 : Reg)] = 0xA0)) = true := by decide
/-- AL44 -/
theorem test_random_mask_zero :
    after ((placed 0x200 0xC300 State.reset).setRndIn (some 0xFF))
      (fun t => decide (t.v[(3 : Reg)] = 0)) = true := by decide
/-- M1 -/
theorem test_set_index :
    after (placed 0x200 0xAFFF State.reset) (fun t => decide (t.index = 0x0FFF)) = true := by decide
/-- M2 -/
theorem test_add_index_no_flag :
    after (placed 0x200 0xF11E ((two 1 5 15 9).setIndex 0x0FFE))
      (fun t => decide (t.index = 0x1003 ∧ t.v[(15 : Reg)] = 9)) = true := by decide
/-- M4 -/
theorem test_add_index_wraps :
    after (placed 0x200 0xF01E ((State.reset.setV 0 1).setIndex 0xFFFF))
      (fun t => decide (t.index = 0)) = true := by decide
/-- M8 -/
theorem test_sprite_address :
    after (placed 0x200 0xF029 (State.reset.setV 0 0x0F)) (fun t => decide (t.index = 0x4B)) = true := by decide
/-- M15 -/
theorem test_store_bcd_top :
    after (placed 0x200 0xF033 ((State.reset.setV 0 255).setIndex 0xFFD))
      (fun t => decide (t.mem.read 4093 = 2 ∧ t.mem.read 4094 = 5 ∧ t.mem.read 4095 = 5)) = true := by decide
/-- M16 -/
theorem test_store_bcd_outside :
    after (placed 0x204 0xF033 ((State.reset.setV 0 1).setIndex 0xFFE))
      (fun t => decide (t.fault = some ⟨.memoryOutOfBounds, 0x204, 0xF033⟩ ∧ t.mem.read 4094 = 0 ∧ t.pc = 0x206)) = true := by decide
/-- M17 -/
theorem test_store_regs :
    after (placed 0x200 0xF155 ((two 0 0x12 1 0x0A).setIndex 0x208))
      (fun t => decide (t.mem.read 0x208 = 0x12 ∧ t.mem.read 0x209 = 0x0A ∧ t.index = 0x20A)) = true := by decide
/-- M20 -/
theorem test_store_regs_outside :
    after (placed 0x200 0xFF55 (State.reset.setIndex 0xFF1))
      (fun t => decide (t.fault = some ⟨.memoryOutOfBounds, 0x200, 0xFF55⟩ ∧ t.index = 0xFF1)) = true := by decide
/-- M22 -/
theorem test_load_regs :
    after (placed 0x200 0xF265 (((State.reset.setV 3 0x99).setIndex 0x300).setMem (Memory.writeBytes [] 0x300 [2, 5, 4])))
      (fun t => decide (t.v[(0 : Reg)] = 2 ∧ t.v[(1 : Reg)] = 5 ∧ t.v[(2 : Reg)] = 4 ∧ t.v[(3 : Reg)] = 0x99 ∧ t.index = 0x303)) = true := by decide
/-- M25 -/
theorem test_load_regs_outside :
    after (placed 0x200 0xF165 ((two 0 3 1 4).setIndex 0xFFF))
      (fun t => decide (t.v[(0 : Reg)] = 3 ∧ t.v[(1 : Reg)] = 4 ∧ t.index = 0xFFF ∧ t.fault ≠ none)) = true := by decide

/-- The reset state, two registers for the coordinates, `I` at 0x300 and sprite bytes there. -/
def sprite (x y : Byte) (rows : List Byte) : State :=
  ((two 0 x 1 y).setIndex 0x300).setMem (Memory.writeBytes [] 0x300 rows)

/-- D3 -/
theorem test_draw_clips :
    after (placed 0x200 0xD012 (sprite 62 30 [0xF0, 0x90]))
      (fun t => decide (t.pixel 62 30 = true ∧ t.pixel 63 30 = true ∧ t.pixel 0 30 = false ∧ t.pixel 62 31 = true ∧ t.pixel 63 31 = false ∧ t.v[(15 : Reg)] = 0)) = true := by decide
/-- D5, with a pixel already on there -/
theorem test_draw_start_wraps :
    after (placed 0x200 0xD011 ((sprite 67 33 [0x80]).setFb (drawPixel 3 1 ⟨blankScreen, false⟩).fb))
      (fun t => decide (t.pixel 3 1 = false ∧ t.v[(15 : Reg)] = 1)) = true := by decide
/-- D13 -/
theorem test_clear_screen :
    after (placed 0x200 0x00E0 (State.reset.setFb (drawPixel 62 30 ⟨blankScreen, false⟩).fb))
      (fun t => decide (t.pixel 62 30 = false)) = true := by decide
/-- K1 -/
theorem test_key_down :
    after (placed 0x208 0xE19E ((State.reset.setV 1 4).setKey 4 true))
      (fun t => decide (t.pc = 0x20C)) = true := by decide
/-- K6 -/
theorem test_key_down_range :
    after (placed 0x202 0xE19E (State.reset.setV 1 0x10))
      (fun t => decide (t.fault = some ⟨.keyIndexOutOfRange, 0x202, 0xE19E⟩ ∧ t.pc = 0x204)) = true := by decide
/-- K4 -/
theorem test_key_up :
    after (placed 0x208 0xE1A1 (State.reset.setV 1 4)) (fun t => decide (t.pc = 0x20C)) = true := by decide
/-- K7 -/
theorem test_key_up_not_masked :
    after (placed 0x200 0xE1A1 ((State.reset.setV 1 0x14).setKey 4 true))
      (fun t => decide (t.fault = some ⟨.keyIndexOutOfRange, 0x200, 0xE1A1⟩)) = true := by decide
/-- K8 -/
theorem test_wait_key_waits :
    after (placed 0x204 0xF10A (State.reset.setV 1 0x33))
      (fun t => decide (t.pc = 0x204 ∧ t.v[(1 : Reg)] = 0x33 ∧ t.fault = none)) = true := by decide
/-- K9 -/
theorem test_wait_key_lowest :
    after (placed 0x204 0xF10A ((State.reset.setKey 7 true).setKey 4 true))
      (fun t => decide (t.v[(1 : Reg)] = 4 ∧ t.pc = 0x206)) = true := by decide
/-- K12 -/
theorem test_get_delay :
    after (placed 0x200 0xF207 (State.reset.setDt 2))
      (fun t => decide (t.v[(2 : Reg)] = 2 ∧ t.dt = 2)) = true := by decide
/-- K13 -/
theorem test_set_delay :
    after (placed 0x200 0xF015 (State.reset.setV 0 3)) (fun t => decide (t.dt = 3)) = true := by decide
/-- K14 -/
theorem test_set_sound :
    after (placed 0x200 0xF018 (State.reset.setV 0 0x10))
      (fun t => decide (t.st = 16 ∧ t.soundOn = true)) = true := by decide

/-- L6 -/
theorem test_reset_then_step : stepCommand 0x5A State.reset = .next (State.reset.setPc 0x202, .unknown 0x0000 0x0200) := by rfl
/-- K15, first TICK -/
theorem test_tick : (tickCommand ((State.reset.setDt 2).setSt 1)).1.dt = 1 ∧
    (tickCommand ((State.reset.setDt 2).setSt 1)).1.st = 0 := by decide
/-- K20 -/
theorem test_set_key_16 : (setKeyCommand 16 true State.reset).1.fault = some ⟨.invalidKeyIndex, 0, 0⟩ := by decide
/-- L3, L7 -/
theorem test_load : (loadCommand defaultFont [0x12, 0x00] State.reset).1.mem.read 0x200 = 0x12 ∧
    (loadCommand defaultFont [0x12, 0x00] State.reset).1.mem.read 0x32 = 0xF0 ∧
    (loadCommand defaultFont [0x12, 0x00] State.reset).1.mem.read 0x50 = 0 := by decide


/-! ## Witnesses: a concrete state and operands for the hypotheses of every statement, at the boundary values of each clause -/

theorem witness_StepRuns : ∃ s : State, s.fault = none ∧ s.pc.toNat ≤ 4094 ∧
    decode (s.mem.readBytes s.pc.toNat 2) = .ok (.jump 0x204, []) := ⟨placed 0xFFE 0x1204 State.reset, by decide⟩

theorem witness_FetchFails_above : ∃ s : State, s.fault = none ∧ 4094 < s.pc.toNat := ⟨State.reset.setPc 4095, by decide⟩
theorem witness_FetchFails_below : ∃ s : State, s.fault = none ∧ s.pc.toNat ≤ 4094 := ⟨State.reset.setPc 4094, by decide⟩

theorem witness_UnknownWord : ∃ s : State, s.fault = none ∧ s.pc.toNat ≤ 4094 ∧ Holds s s.pc.toNat 0x5121 ∧
    decodeWord 0x5121 = none := ⟨placed 0xFFE 0x5121 State.reset, by unfold Holds; decide⟩

theorem witness_OpcodeMap : (⟨"jump", 0xF000, 0x1000⟩ : OpcodeRow) ∈ opcodeRows ∧ decodeWord 0x1FFF = some (.jump 0xFFF) := by
  decide
theorem witness_EncodeOfDecode : decodeWord 0xFF65 = some (.loadRegs 15) := by decide

theorem witness_Return_empty : ∃ s : State, s.sp = 0 := ⟨State.reset, rfl⟩
theorem witness_Return_one : ∃ s : State, s.sp.val = (0 : Fin 16).val + 1 := ⟨State.reset.setSp 1, rfl⟩
theorem witness_Return_full : ∃ s : State, s.sp.val = (15 : Fin 16).val + 1 := ⟨State.reset.setSp 16, rfl⟩
theorem witness_Call_full : ∃ s : State, s.sp = 16 := ⟨State.reset.setSp 16, rfl⟩
theorem witness_Call_empty : ∃ s : State, s.sp.val = (0 : Fin 16).val := ⟨State.reset, rfl⟩
theorem witness_Call_last : ∃ s : State, s.sp.val = (15 : Fin 16).val := ⟨State.reset.setSp 15, rfl⟩

theorem witness_Skips_imm : ∃ s : State, s.v[(1 : Reg)].toNat = (7 : Byte).toNat ∧ ¬ s.v[(2 : Reg)].toNat = (7 : Byte).toNat :=
  ⟨two 1 7 2 8, by decide⟩
theorem witness_Skips_reg : ∃ s : State, s.v[(1 : Reg)].toNat = s.v[(2 : Reg)].toNat ∧
    ¬ s.v[(1 : Reg)].toNat = s.v[(3 : Reg)].toNat := ⟨two 1 7 2 7, by decide⟩

theorem witness_CallThenReturn : ∃ s : State, s.fault = none ∧ s.pc.toNat ≤ 4094 ∧ s.sp.val < 16 ∧ (4092 : Addr).toNat ≤ 4094 ∧
    Holds s s.pc.toNat (wordA 0x2 4092) ∧ Holds s (4092 : Addr).toNat 0x00EE :=
  ⟨(placed 0xFFE 0x2FFC (placed 0xFFC 0x00EE State.reset)).setSp 15, by unfold Holds wordA; decide⟩

/-- The clause of `SetsRegAndFlag` on the result. -/
theorem witness_SetsRegAndFlag : (14 : Reg) ≠ 15 := by decide

theorem witness_Random_step : ∃ s : State, s.fault = none ∧ s.pc.toNat ≤ 4094 ∧
    Holds s s.pc.toNat (wordXK 0xC 3 (0xFF : Byte).toNat) := ⟨placed 0xFFE 0xC3FF State.reset, by unfold Holds wordXK; decide⟩
theorem witness_Random_unread : ∃ s : State, ∀ (x : Reg) (kk : Byte), ¬ Holds s s.pc.toNat (wordXK 0xC x kk.toNat) := by
  refine ⟨State.reset, fun x kk h => ?_⟩
  have hx := x.isLt
  have hk := kk.isLt
  have h0 : (wordXK 0xC x kk.toNat).toNat = 0 := h
  simp only [wordXK, BitVec.toNat_ofNat] at h0
  omega

theorem witness_SpriteAddress_digit : ∃ s : State, s.v[(0 : Reg)].toNat ≤ 15 := ⟨State.reset.setV 0 15, by decide⟩
theorem witness_SpriteAddress_above : ∃ s : State, 15 < s.v[(0 : Reg)].toNat := ⟨State.reset.setV 0 16, by decide⟩

theorem witness_StoreBcd_outside : ∃ s : State, 4093 < s.index.toNat := ⟨State.reset.setIndex 4094, by decide⟩
theorem witness_StoreBcd_inside : ∃ s : State, s.index.toNat ≤ 4093 := ⟨State.reset.setIndex 4093, by decide⟩

/-- For store-registers and load-registers alike. -/
theorem witness_Block_outside : ∃ s : State, 4095 < s.index.toNat + (15 : Reg).val := ⟨State.reset.setIndex 4081, by decide⟩
theorem witness_Block_inside : ∃ s : State, s.index.toNat + (15 : Reg).val ≤ 4095 ∧ (15 : Reg) ≤ 15 :=
  ⟨State.reset.setIndex 4080, by decide⟩
theorem witness_StoreThenLoad : ∃ s : State, s.index.toNat + (3 : Reg).val ≤ 4095 ∧ (3 : Reg) ≤ 3 ∧ (3 : Reg) < 4 :=
  ⟨State.reset.setIndex 4092, by decide⟩
theorem witness_NextFetch : ∃ s : State, s.index.toNat + (1 : Reg).val ≤ 4095 ∧ (1 : Reg).val = (0 : Reg).val + 1 ∧
    (1 : Reg) ≤ 1 ∧ s.pc.toNat = s.index.toNat + (0 : Reg).val := ⟨(State.reset.setIndex 4094).setPc 4094, by decide⟩

theorem witness_Draw_outside : ∃ s : State, 0 < (2 : Height).val ∧ 4095 < s.index.toNat + (2 : Height).val - 1 :=
  ⟨State.reset.setIndex 4095, by decide⟩
theorem witness_Draw_inside : ∃ s : State, (1 : Height).val = 0 ∨ s.index.toNat + (1 : Height).val - 1 ≤ 4095 :=
  ⟨State.reset.setIndex 4095, by decide⟩
theorem witness_Draw_height_zero : ∃ s : State, (0 : Height).val = 0 ∨ s.index.toNat + (0 : Height).val - 1 ≤ 4095 :=
  ⟨State.reset.setIndex 65535, by decide⟩
/-- D4: the lit pixel at the last column and row, the start wrapped. -/
theorem witness_Draw_lit : SpriteLit (sprite 0xFF 0xFF [0xFF, 0xFF]) 0 1 2 63 31 := ⟨0, 0, by decide⟩
theorem witness_Draw_unlit : ¬ SpriteLit (sprite 0 0 [0x80]) 0 1 0 0 0 := by
  rintro ⟨r, c, h, _⟩
  simp at h
/-- A lit pixel that is on. -/
theorem witness_Draw_collision : ∃ s : State, ∃ (i : Fin 64) (j : Fin 32), SpriteLit s 0 1 1 i j ∧ s.pixel i j = true :=
  ⟨(sprite 0 0 [0x80]).setFb (drawPixel 0 0 ⟨blankScreen, false⟩).fb, 0, 0, ⟨0, 0, by decide⟩, by decide⟩
theorem witness_Draw_no_collision : ∃ s : State,
    ¬ ∃ (i : Fin 64) (j : Fin 32), SpriteLit s 0 1 1 i j ∧ s.pixel i j = true := by
  refine ⟨State.reset, fun ⟨i, j, _, h⟩ => ?_⟩
  have h0 : State.reset.pixel i j = false := blankScreen_pixel i j
  simp [h0] at h
theorem witness_DoubleDraw : ∃ s : State, (0 : Reg) ≠ 15 ∧ (14 : Reg) ≠ 15 ∧
    ((15 : Height).val = 0 ∨ s.index.toNat + (15 : Height).val - 1 ≤ 4095) := ⟨State.reset.setIndex 4081, by decide⟩
theorem witness_DoubleDraw_second_collides : ∃ s : State, ∃ (i : Fin 64) (j : Fin 32),
    SpriteLit s 0 1 1 i j ∧ s.pixel i j = false := ⟨sprite 0 0 [0x80], 0, 0, ⟨0, 0, by decide⟩, by decide⟩

theorem witness_KeySkips_outside : ∃ s : State, 15 < s.v[(1 : Reg)].toNat := ⟨State.reset.setV 1 16, by decide⟩
theorem witness_KeySkips_down : ∃ s : State, s.v[(1 : Reg)].toNat = (15 : Fin 16).val ∧ s.key[(15 : Fin 16)] = true :=
  ⟨(State.reset.setV 1 15).setKey 15 true, by decide⟩
theorem witness_KeySkips_up : ∃ s : State, s.v[(1 : Reg)].toNat = (0 : Fin 16).val ∧ s.key[(0 : Fin 16)] = false :=
  ⟨State.reset, by decide⟩
theorem witness_WaitForKey_none : ∃ s : State, (∀ k : Fin 16, s.key[k] = false) ∧ s.fault = none ∧ s.pc.toNat ≤ 4094 ∧
    Holds s s.pc.toNat (wordXK 0xF 1 0x0A) := ⟨placed 0xFFE 0xF10A State.reset, by unfold Holds wordXK; decide⟩
theorem witness_WaitForKey_first : ∃ s : State, s.key[(0 : Fin 16)] = true ∧ ∀ j : Fin 16, j < 0 → s.key[j] = false :=
  ⟨(State.reset.setKey 0 true).setKey 3 true, by decide⟩
theorem witness_WaitForKey_last : ∃ s : State, s.key[(15 : Fin 16)] = true ∧ ∀ j : Fin 16, j < 15 → s.key[j] = false :=
  ⟨State.reset.setKey 15 true, by decide⟩

theorem witness_running : ∃ s : State, s.fault = none := ⟨State.reset, rfl⟩
theorem witness_stopped : ∃ s : State, s.fault = some ⟨.stackUnderflow, 0x204, 0x00EE⟩ :=
  ⟨State.reset.setFault (some ⟨.stackUnderflow, 0x204, 0x00EE⟩), rfl⟩
theorem witness_SetKey_outside : ∃ s : State, s.fault = none ∧ 15 < 16 := ⟨State.reset, by decide⟩
theorem witness_SetKey_inside : ∃ s : State, s.fault = none ∧ 15 = (15 : Fin 16).val ∧ (14 : Fin 16) ≠ 15 :=
  ⟨State.reset, by decide⟩
theorem witness_Load_too_long : ∃ (s : State) (bs : List Byte), s.fault = none ∧ 3584 < bs.length :=
  ⟨State.reset, List.replicate 3585 0, rfl, by rw [List.length_replicate]; omega⟩
theorem witness_Load_longest : ∃ (s : State) (bs : List Byte), s.fault = none ∧ bs.length ≤ 3584 ∧ 3583 < bs.length :=
  ⟨State.reset, List.replicate 3584 0, rfl, by rw [List.length_replicate]; omega⟩
theorem witness_Load_elsewhere : 80 ≤ 80 ∧ ¬ (0x200 ≤ 80 ∧ 80 < 0x200 + 3584) := by decide
theorem witness_FailuresArePrecise : ∃ s t : State, ∃ f, step s = .next t ∧ t.fault = some f :=
  ⟨State.reset.setPc 4095, fetchFailed (State.reset.setPc 4095), _, rfl, rfl⟩
theorem witness_StepFailure : ∃ s : State, s.fault = none ∧ stepFailure s = some ⟨.stackUnderflow, 0x204, 0x00EE⟩ :=
  ⟨placed 0x204 0x00EE State.reset, by decide⟩
theorem witness_Tick_zero : ∃ s : State, s.fault = none ∧ s.dt = 0 ∧ s.st ≠ 0 := ⟨State.reset.setSt 255, by decide⟩
theorem witness_Tick_nonzero : ∃ s : State, s.fault = none ∧ s.dt ≠ 0 ∧ s.st = 0 := ⟨State.reset.setDt 1, by decide⟩

theorem witness_ChangeNotice_marked : ∃ s : State, s.fault = none ∧ fetch s = some (wordXYN 0xD 0 1 15) :=
  ⟨placed 0x200 0xD01F State.reset, by unfold wordXYN; decide⟩
theorem witness_ChangeNotice_unmarked : ∃ s : State, s.fault = none ∧ fetch s = some 0x6FAB :=
  ⟨placed 0x200 0x6FAB State.reset, by decide⟩

theorem witness_Commands_unreset : ∃ b : Block, b.lifecycle = .unreset ∧ Command.tick ≠ .reset :=
  ⟨⟨.unreset, State.reset⟩, by decide⟩
theorem witness_Commands_late_load : ∃ b : Block, b.lifecycle = .running ∧ Command.load [0x12] = .load [0x12] :=
  ⟨⟨.running, State.reset⟩, by decide⟩
theorem witness_Commands_fresh_load : ∃ b : Block, b.lifecycle ≠ .unreset ∧ Command.load [] ≠ .reset ∧
    (b.lifecycle = .running → ∀ bs, Command.load [] ≠ .load bs) := ⟨⟨.fresh, State.reset⟩, by decide, by decide, fun h => by cases h⟩
theorem witness_Commands_running : ∃ b : Block, b.lifecycle ≠ .unreset ∧ Command.tick ≠ .reset ∧
    (b.lifecycle = .running → ∀ bs, Command.tick ≠ .load bs) :=
  ⟨⟨.running, State.reset⟩, by decide, by decide, fun _ _ h => by cases h⟩

theorem witness_SoundTimer_written : ∃ s t : State, exec (.setSound 0) s = .next t := ⟨State.reset, _, rfl⟩
theorem witness_SoundTimer_kept : (∀ x, Instr.getDelay 0 ≠ .setSound x) ∧ ∃ s t : State, exec (.getDelay 0) s = .next t :=
  ⟨(fun _ h => nomatch h), State.reset, _, rfl⟩

/-- The invariant at its bounds: `pc` 4350, all sixteen stack entries live, 2 and 4096 among them. -/
def edge : State := ((State.reset.setPc 4350).setSp 16).setRegs (Vector.replicate 16 0xFF)
def edgeFull : State := { edge with stack := (Vector.replicate 16 (4096 : Word)).set 0 2 }
theorem witness_Inv_edge : edgeFull.Inv := by unfold State.Inv; decide
theorem witness_StepKeeps : ∃ s t : State, s.Inv ∧ s.mem.wf = true ∧ step s = .next t :=
  ⟨edgeFull, fetchFailed edgeFull, witness_Inv_edge, by decide, rfl⟩
theorem witness_CommandRun : ∃ (b b' : Block), BlockInv b ∧ commands defaultFont [.reset, .load [0x12, 0x00], .tick] b = .next b' :=
  ⟨⟨.unreset, State.reset⟩, _, .inl rfl, rfl⟩
theorem witness_Parked : (placed 0xFFE 0x1FFE State.reset).ParkedAt 0xFFE := by unfold State.ParkedAt; decide

end Sys2Proof.Tests
end

section
/-! PROOFS of the statements on the state (`spec/10_state.md` R26 to R38): what each branch of an instruction or command does,
the invariant along steps and runs, the frame of every instruction and command, and that the sound timer is never read. -/

namespace Sys2Proof.Machine

/-! ## The instructions that branch, one equation per branch -/

/-- The framebuffer and the collision that an in-bounds `draw-sprite` leaves (R201). -/
def drawnCanvas (x y : Reg) (n : Height) (s : State) : Canvas :=
  drawRows ((s.readV x).toNat % 64) ((s.readV y).toNat % 32) (s.mem.readBytes s.index.toNat n.val) ⟨s.fb, false⟩

section Branches

variable {s : State} {x y : Reg} {n : Height} {nnn : Addr}

theorem exec_ret_of_pos (h : 0 < s.sp.val) :
    exec .ret s = .next ((s.setSp ⟨s.sp.val - 1, by omega⟩).setPc (s.stack[s.sp.val - 1]'(by omega))) := by
  simp only [exec, execRet, pop_of_pos s h]

theorem exec_ret_of_empty (h : ¬ 0 < s.sp.val) : exec .ret s = raise .stackUnderflow .ret s := by
  simp only [exec, execRet, pop_empty s h]

theorem exec_call_of_lt (h : s.sp.val < 16) :
    exec (.call nnn) s =
      .next (((s.setStack ⟨s.sp.val, h⟩ s.pc).setSp ⟨s.sp.val + 1, by omega⟩).setPc (addrWord nnn)) := by
  simp only [exec, execCall, push_of_lt s.pc s h]

theorem exec_call_of_full (h : ¬ s.sp.val < 16) : exec (.call nnn) s = raise .stackOverflow (.call nnn) s := by
  simp only [exec, execCall, push_full s.pc s h]

theorem exec_drawSprite_in (h : InBounds s.index n.val) :
    exec (.drawSprite x y n) s =
      .next ((s.setFb (drawnCanvas x y n s).fb).setV VF (flag (drawnCanvas x y n s).hit)) := by
  simp only [exec, execDrawSprite, loadAtIndex_in n.val s h, drawnCanvas]

theorem exec_drawSprite_out (h : ¬ InBounds s.index n.val) :
    exec (.drawSprite x y n) s = raise .memoryOutOfBounds (.drawSprite x y n) s := by
  simp only [exec, execDrawSprite, loadAtIndex_out n.val s h]

theorem exec_spriteAddress_of_le (h : (s.readV x).toNat ≤ 15) :
    exec (.spriteAddress x) s = .next (s.setIndex (BitVec.ofNat 16 ((s.readV x).toNat * 5))) := if_pos h

/-- Above 15 the model draws a free value (log entry 3). -/
theorem exec_spriteAddress_of_gt (h : ¬ (s.readV x).toNat ≤ 15) :
    exec (.spriteAddress x) s = .next (s.setIndex (Config.freeIndex s.draws)).countDraw := if_neg h

theorem exec_storeBcd_in (h : InBounds s.index 3) :
    exec (.storeBcd x) s = .next (s.setMem (s.mem.writeBytes s.index.toNat (bcdDigits (s.readV x)))) := by
  simp only [exec, execStoreBcd, storeAtIndex_in (bcdDigits (s.readV x)) s h]

theorem exec_storeBcd_out (h : ¬ InBounds s.index 3) :
    exec (.storeBcd x) s = raise .memoryOutOfBounds (.storeBcd x) s := by
  simp only [exec, execStoreBcd, storeAtIndex_out (bcdDigits (s.readV x)) s h]

theorem exec_storeRegs_in (h : InBounds s.index (x.val + 1)) :
    exec (.storeRegs x) s =
      .next ((s.setMem (s.mem.writeBytes s.index.toNat (s.firstRegs x))).bumpIndex x) := by
  simp only [exec, execStoreRegs, storeAtIndex_in (s.firstRegs x) s (by rwa [State.firstRegs_length])]

theorem exec_storeRegs_out (h : ¬ InBounds s.index (x.val + 1)) :
    exec (.storeRegs x) s = raise .memoryOutOfBounds (.storeRegs x) s := by
  simp only [exec, execStoreRegs, storeAtIndex_out (s.firstRegs x) s (by rwa [State.firstRegs_length])]

theorem exec_loadRegs_in (h : InBounds s.index (x.val + 1)) :
    exec (.loadRegs x) s =
      .next ((s.loadFirst (s.mem.readBytes s.index.toNat (x.val + 1))).bumpIndex x) := by
  simp only [exec, execLoadRegs, loadAtIndex_in (x.val + 1) s h]

theorem exec_loadRegs_out (h : ¬ InBounds s.index (x.val + 1)) :
    exec (.loadRegs x) s = raise .memoryOutOfBounds (.loadRegs x) s := by
  simp only [exec, execLoadRegs, loadAtIndex_out (x.val + 1) s h]

theorem exec_skipKeyDown_of_lt (h : (s.readV x).toNat < 16) :
    exec (.skipKeyDown x) s = skipIf s.key[(s.readV x).toNat] s := dif_pos h

theorem exec_skipKeyDown_of_ge (h : ¬ (s.readV x).toNat < 16) :
    exec (.skipKeyDown x) s = raise .keyIndexOutOfRange (.skipKeyDown x) s := dif_neg h

theorem exec_skipKeyUp_of_lt (h : (s.readV x).toNat < 16) :
    exec (.skipKeyUp x) s = skipIf (!s.key[(s.readV x).toNat]) s := dif_pos h

theorem exec_skipKeyUp_of_ge (h : ¬ (s.readV x).toNat < 16) :
    exec (.skipKeyUp x) s = raise .keyIndexOutOfRange (.skipKeyUp x) s := dif_neg h

theorem exec_waitKey_of_none (h : lowestKey s.key = none) :
    exec (.waitKey x) s = .next (s.setPc (s.pc - 2)) := by
  simp only [exec, execWaitKey, h]

theorem exec_waitKey_of_some {k : Fin 16} (h : lowestKey s.key = some k) :
    exec (.waitKey x) s = .next (s.setV x (BitVec.ofNat 8 k.val)) := by
  simp only [exec, execWaitKey, h]

end Branches

/-! ## The commands on the machine's state, one equation per branch (R246, R247, R258, R261, R293) -/

/-- The image's first byte goes to 0x200 (R293). -/
theorem entry_toNat : Config.entry.toNat = 512 := rfl

section CommandBranches

variable {s : State} {f : FaultRecord} {font : Font} {bs : List Byte} {k : Nat} {p : Bool}

theorem loadCommand_of_latched (h : s.fault = some f) : loadCommand font bs s = (s, .fault f.cause) := by
  simp only [loadCommand, h]

theorem loadCommand_of_tooLong (h : s.fault = none) (hl : 3584 < bs.length) :
    loadCommand font bs s = (s.latch .outOfMemory 0 0, .fault .outOfMemory) := by
  simp only [loadCommand, h, if_pos hl]

theorem loadCommand_of_fits (h : s.fault = none) (hl : ¬ 3584 < bs.length) :
    loadCommand font bs s =
      (s.setMem ((s.mem.writeBytes Config.entry.toNat bs).writeBytes 0 font.toList), .ok) := by
  simp only [loadCommand, h, if_neg hl]

theorem setKeyCommand_of_latched (h : s.fault = some f) : setKeyCommand k p s = (s, .fault f.cause) := by
  simp only [setKeyCommand, h]

theorem setKeyCommand_of_lt (h : s.fault = none) (hk : k < 16) :
    setKeyCommand k p s = (s.setKey ⟨k, hk⟩ p, .ok) := by
  simp only [setKeyCommand, h, dif_pos hk]

theorem setKeyCommand_of_ge (h : s.fault = none) (hk : ¬ k < 16) :
    setKeyCommand k p s = (s.latch .invalidKeyIndex 0 0, .fault .invalidKeyIndex) := by
  simp only [setKeyCommand, h, dif_neg hk]

theorem tickCommand_of_latched (h : s.fault = some f) : tickCommand s = (s, .fault f.cause) := by
  simp only [tickCommand, h]

theorem tickCommand_of_running (h : s.fault = none) :
    tickCommand s = ((s.setDt (countDown s.dt)).setSt (countDown s.st), .ok) := by
  simp only [tickCommand, h]

end CommandBranches

/-! ## The invariant of a step (R38) -/

namespace State.Inv

variable {s : State}

theorem setPc (hs : s.Inv) {w : Word} (hw : w.toNat ≤ 4350) : (s.setPc w).Inv := by
  obtain ⟨hmem, -, hlive⟩ := hs
  exact ⟨hmem, hw, hlive⟩

theorem setMem (hs : s.Inv) {m : Memory} (hm : m.wf = true) : (s.setMem m).Inv := by
  obtain ⟨-, hpc, hlive⟩ := hs
  exact ⟨hm, hpc, hlive⟩

theorem mem_wf (hs : s.Inv) : s.mem.wf = true := hs.1

/-- A store at `I` that is in bounds. -/
theorem setMem_writeBytes (hs : s.Inv) {bs : List Byte} (h : InBounds s.index bs.length) :
    (s.setMem (s.mem.writeBytes s.index.toNat bs)).Inv :=
  hs.setMem (storeAtIndex_wf (storeAtIndex_in bs s h) hs.mem_wf)

/-- No more live entries than before. -/
theorem setSp_le (hs : s.Inv) {n : Fin 17} (hn : n.val ≤ s.sp.val) : (s.setSp n).Inv := by
  obtain ⟨hmem, hpc, hlive⟩ := hs
  exact ⟨hmem, hpc, fun i hi => hlive i (Nat.lt_of_lt_of_le hi hn)⟩

/-- One more live entry, and it is a return address. -/
theorem push (hs : s.Inv) (h : s.sp.val < 16) {w : Word} (h2 : 2 ≤ w.toNat) (hw : w.toNat ≤ 4096) :
    ((s.setStack ⟨s.sp.val, h⟩ w).setSp ⟨s.sp.val + 1, by omega⟩).Inv := by
  obtain ⟨hmem, hpc, hlive⟩ := hs
  refine ⟨hmem, hpc, fun i (hi : i.val < s.sp.val + 1) => ?_⟩
  rw [State.setSp_stack, State.setStack_get]
  split
  · exact ⟨h2, hw⟩
  · next hne =>
    have hother : i.val ≠ s.sp.val := fun heq => hne (Fin.ext heq)
    exact hlive i (by omega)

/-- The entry `return` takes is a possible `pc`. -/
theorem top_le (hs : s.Inv) (h : 0 < s.sp.val) : (s.stack[s.sp.val - 1]'(by omega)).toNat ≤ 4096 := by
  obtain ⟨-, -, hlive⟩ := hs
  exact (hlive ⟨s.sp.val - 1, by omega⟩ (Nat.sub_one_lt_of_lt h)).2

/-- A skip from a `pc` that an advance has left. -/
theorem skipIf (hs : s.Inv) (hp : s.pc.toNat ≤ 4096) (c : Bool) :
    ∃ t, Machine.skipIf c s = .next t ∧ t.Inv := by
  refine ⟨_, skipIf_eq c s, hs.setPc ?_⟩
  have hadd : (s.pc + 2).toNat = s.pc.toNat + 2 := by bv_omega
  split <;> omega

end State.Inv

/-- An instruction that starts after a good fetch (so `pc` is in 2 to 4096) keeps the invariant. Only a control transfer, a key
wait and a store touch what the invariant speaks of. -/
theorem exec_keeps_inv (i : Instr) {s : State} (hs : s.Inv) (h2 : 2 ≤ s.pc.toNat) (hp : s.pc.toNat ≤ 4096) :
    ∃ t, exec i s = .next t ∧ t.Inv := by
  cases i with
  | ret =>
    by_cases h : 0 < s.sp.val
    · have htop := hs.top_le h
      exact ⟨_, exec_ret_of_pos h, (hs.setSp_le (Nat.sub_le ..)).setPc (by omega)⟩
    · exact ⟨_, exec_ret_of_empty h, hs⟩
  | call nnn =>
    by_cases h : s.sp.val < 16
    · exact ⟨_, exec_call_of_lt h, (hs.push h h2 hp).setPc (by rw [addrWord_toNat]; omega)⟩
    · exact ⟨_, exec_call_of_full h, hs⟩
  | jump nnn => exact ⟨_, rfl, hs.setPc (by rw [addrWord_toNat]; omega)⟩
  | jumpOffset nnn =>
    have hsum := BitVec.toNat_add (addrWord nnn) (byteWord (s.readV 0))
    rw [addrWord_toNat, byteWord_toNat] at hsum
    exact ⟨_, rfl, hs.setPc (by omega)⟩
  | skipEqImm | skipNeqImm | skipEqReg | skipNeqReg => exact hs.skipIf hp _
  | skipKeyDown x =>
    by_cases h : (s.readV x).toNat < 16
    · rw [exec_skipKeyDown_of_lt h]; exact hs.skipIf hp _
    · exact ⟨_, exec_skipKeyDown_of_ge h, hs⟩
  | skipKeyUp x =>
    by_cases h : (s.readV x).toNat < 16
    · rw [exec_skipKeyUp_of_lt h]; exact hs.skipIf hp _
    · exact ⟨_, exec_skipKeyUp_of_ge h, hs⟩
  | waitKey x =>
    cases h : lowestKey s.key with
    | none => exact ⟨_, exec_waitKey_of_none h, hs.setPc (by bv_omega)⟩
    | some k => exact ⟨_, exec_waitKey_of_some h, hs⟩
  | storeBcd x =>
    by_cases h : InBounds s.index 3
    · exact ⟨_, exec_storeBcd_in h, hs.setMem_writeBytes (bs := bcdDigits (s.readV x)) h⟩
    · exact ⟨_, exec_storeBcd_out h, hs⟩
  | storeRegs x =>
    by_cases h : InBounds s.index (x.val + 1)
    · exact ⟨_, exec_storeRegs_in h, hs.setMem_writeBytes (by rwa [State.firstRegs_length])⟩
    · exact ⟨_, exec_storeRegs_out h, hs⟩
  | loadRegs x =>
    by_cases h : InBounds s.index (x.val + 1)
    · exact ⟨_, exec_loadRegs_in h, hs⟩
    · exact ⟨_, exec_loadRegs_out h, hs⟩
  | drawSprite x y n =>
    by_cases h : InBounds s.index n.val
    · exact ⟨_, exec_drawSprite_in h, hs⟩
    · exact ⟨_, exec_drawSprite_out h, hs⟩
  | spriteAddress x =>
    by_cases h : (s.readV x).toNat ≤ 15
    · exact ⟨_, exec_spriteAddress_of_le h, hs⟩
    · exact ⟨_, exec_spriteAddress_of_gt h, hs⟩
  | _ => exact ⟨_, rfl, hs⟩

/-- A fetch that succeeds finds `pc` at most 4094 (R92). -/
theorem pc_le_of_fetch {s : State} {op : Word} (h : fetch s = some op) : s.pc.toNat ≤ 4094 := by
  by_contra hpc
  rw [fetch_out s hpc] at h
  cases h

theorem advance_pc_toNat {s : State} (h : s.pc.toNat ≤ 4094) : (advance s).pc.toNat = s.pc.toNat + 2 := by
  rw [advance_pc]; bv_omega

/-- An advance after a good fetch. -/
theorem State.Inv.advance {s : State} (hs : s.Inv) (h : s.pc.toNat ≤ 4094) : (advance s).Inv :=
  hs.setPc (by have hadv := advance_pc_toNat h; rw [advance_pc] at hadv; omega)

/-- Settles O50, by the four things a step can do and the invariant of each instruction. -/
theorem stepKeepsTheInvariant : Obligations.StepKeepsTheInvariant := by
  intro s t hs ht
  rcases step_cases s with ⟨f, -, h⟩ | ⟨-, -, h⟩ | ⟨op, -, hop, -, h⟩ | ⟨op, i, -, hop, -, h⟩ <;> rw [h] at ht
  · cases ht
  · cases ht
    exact hs
  · cases ht
    exact hs.advance (pc_le_of_fetch hop)
  · have hpc := pc_le_of_fetch hop
    have hadv := advance_pc_toNat hpc
    obtain ⟨u, hu, hinv⟩ := exec_keeps_inv i (hs.advance hpc) (by omega) (by omega)
    cases hu.symm.trans ht
    exact hinv

/-! ## The invariant along runs of commands (R38, R267) -/

theorem State.Inv.reset : State.reset.Inv :=
  ⟨Memory.wf_reset, by decide, fun _ hi => absurd hi (Nat.not_lt_zero _)⟩

theorem resetCommand_inv (s : State) : (resetCommand s).1.Inv := State.Inv.reset

/-- Settles O49: the count that RESET carries over is no part of the invariant. -/
theorem resetMeetsTheInvariant : Obligations.ResetMeetsTheInvariant := ⟨State.Inv.reset, resetCommand_inv⟩

/-- What LOAD writes lies inside the 4096 bytes: the image ends at 512 + 3584, the font at 80. -/
theorem State.Inv.loadCommand {s : State} (hs : s.Inv) (font : Font) (bs : List Byte) :
    (loadCommand font bs s).1.Inv := by
  cases h : s.fault with
  | some f => rw [loadCommand_of_latched h]; exact hs
  | none =>
    by_cases hl : 3584 < bs.length
    · rw [loadCommand_of_tooLong h hl]; exact hs
    · rw [loadCommand_of_fits h hl]
      have himage : Config.entry.toNat + bs.length ≤ 4096 := by rw [entry_toNat]; omega
      exact hs.setMem (Memory.wf_writeBytes _ (Memory.wf_writeBytes _ hs.mem_wf himage) (by simp))

theorem State.Inv.setKeyCommand {s : State} (hs : s.Inv) (k : Nat) (p : Bool) : (setKeyCommand k p s).1.Inv := by
  cases h : s.fault with
  | some f => rw [setKeyCommand_of_latched h]; exact hs
  | none =>
    by_cases hk : k < 16
    · rw [setKeyCommand_of_lt h hk]; exact hs
    · rw [setKeyCommand_of_ge h hk]; exact hs

theorem State.Inv.tickCommand {s : State} (hs : s.Inv) : (tickCommand s).1.Inv := by
  cases h : s.fault with
  | some f => rw [tickCommand_of_latched h]; exact hs
  | none => rw [tickCommand_of_running h]; exact hs

theorem State.Inv.stepCommand {s : State} (hs : s.Inv) {rnd : Byte} {q : State × Result}
    (h : stepCommand rnd s = .next q) : q.1.Inv := by
  unfold Machine.stepCommand at h
  split at h
  · next t ht =>
    cases h
    have hinv : t.Inv := stepKeepsTheInvariant (s.setRndIn (some rnd)) t hs ht
    exact hinv
  · cases h
    exact hs
  · cases h

section Commands

open Sys2Proof.Claims

variable {font : Font} {b : Block}

theorem command_of_unreset {c : Command} (h : b.lifecycle = .unreset) (hc : c ≠ .reset) :
    command font c b = .refused .beforeReset := by
  cases c with
  | reset => exact absurd rfl hc
  | _ => simp only [command, h]

/-- An answered command keeps the invariant when its machine part does. -/
theorem blockInv_of_answered {p : State × Result} {q : Block × Result} (hp : p.1.Inv)
    (h : answered p = .next q) : BlockInv q.1 := by
  cases h
  exact .inr hp

theorem command_keeps_inv {c : Command} {q : Block × Result} (hb : BlockInv b)
    (h : command font c b = .next q) : BlockInv q.1 := by
  obtain ⟨lifecycle, m⟩ := b
  by_cases hc : c = .reset
  · subst hc
    cases h
    exact .inr (resetCommand_inv m)
  rcases hb with hl | (hs : m.Inv)
  · rw [command_of_unreset hl hc] at h
    cases h
  -- the seven rows of `command`: RESET, before RESET, LOAD fresh and late, SETKEY, TICK, STEP
  unfold command at h
  split at h
  · exact absurd rfl hc
  · cases h
  · exact blockInv_of_answered (hs.loadCommand font _) h
  · cases h
  · exact blockInv_of_answered (hs.setKeyCommand _ _) h
  · exact blockInv_of_answered hs.tickCommand h
  · split at h
    · next p hp => exact blockInv_of_answered (hs.stepCommand hp) h
    · cases h
    · cases h

/-- Settles O52, by induction on the commands. -/
theorem everyCommandRunKeepsTheInvariant : Obligations.EveryCommandRunKeepsTheInvariant := by
  intro font cs
  induction cs with
  | nil =>
    intro b b' hb h
    cases h
    exact hb
  | cons c cs ih =>
    intro b b' hb h
    rw [commands] at h
    split at h
    · next p hp => exact ih p.1 b' (command_keeps_inv hb hp) h
    · cases h
    · cases h

end Commands

/-! ## Frames: a write of what the list allows keeps `Unchanged` (R37) -/

namespace Unchanged

variable {m : MayChange} {s t : State}

theorem refl (m : MayChange) (s : State) : Unchanged m s s := by
  simp [Unchanged]

theorem setV (h : Unchanged m s t) {x : Reg} (hx : x ∈ m.regs) (b : Byte) : Unchanged m s (t.setV x b) := by
  obtain ⟨hv, rest⟩ := h
  refine ⟨fun r hr => ?_, rest⟩
  rw [State.setV_get, if_neg (ne_of_mem_of_not_mem hx hr).symm, hv r hr]

theorem loadFirst (h : Unchanged m s t) {bs : List Byte} (hbs : ∀ r : Reg, r.val < bs.length → r ∈ m.regs) :
    Unchanged m s (t.loadFirst bs) := by
  obtain ⟨hv, rest⟩ := h
  refine ⟨fun r hr => ?_, rest⟩
  have hlen : bs.length ≤ r.val := Nat.le_of_not_lt fun hlt => hr (hbs r hlt)
  rw [State.loadFirst_get, List.getElem?_eq_none hlen, Option.getD_none, hv r hr]

theorem setIndex (h : Unchanged m s t) (hm : m.index = true) (w : Word) : Unchanged m s (t.setIndex w) := by
  obtain ⟨hv, -, rest⟩ := h
  exact ⟨hv, by simp [hm], rest⟩

theorem setPc (h : Unchanged m s t) (hm : m.pc = true) (w : Word) : Unchanged m s (t.setPc w) := by
  obtain ⟨hv, hi, -, rest⟩ := h
  exact ⟨hv, hi, by simp [hm], rest⟩

theorem setSp (h : Unchanged m s t) (hm : m.sp = true) (n : Fin 17) : Unchanged m s (t.setSp n) := by
  obtain ⟨hv, hi, hpc, -, rest⟩ := h
  exact ⟨hv, hi, hpc, by simp [hm], rest⟩

theorem setStack (h : Unchanged m s t) {i : Fin 16} (hm : m.stackSlot = some i.val) (w : Word) :
    Unchanged m s (t.setStack i w) := by
  obtain ⟨hv, hi, hpc, hsp, hst, rest⟩ := h
  refine ⟨hv, hi, hpc, hsp, fun j hj => ?_, rest⟩
  have hne : j ≠ i := fun heq => hj (heq ▸ hm)
  rw [State.setStack_get, if_neg hne, hst j hj]

theorem setDt (h : Unchanged m s t) (hm : m.dt = true) (b : Byte) : Unchanged m s (t.setDt b) := by
  obtain ⟨hv, hi, hpc, hsp, hst, -, rest⟩ := h
  exact ⟨hv, hi, hpc, hsp, hst, by simp [hm], rest⟩

theorem setSt (h : Unchanged m s t) (hm : m.st = true) (b : Byte) : Unchanged m s (t.setSt b) := by
  obtain ⟨hv, hi, hpc, hsp, hst, hdt, -, rest⟩ := h
  exact ⟨hv, hi, hpc, hsp, hst, hdt, by simp [hm], rest⟩

theorem setFb (h : Unchanged m s t) (hm : m.fb = true) (f : Screen) : Unchanged m s (t.setFb f) := by
  obtain ⟨hv, hi, hpc, hsp, hst, hdt, hsound, -, rest⟩ := h
  exact ⟨hv, hi, hpc, hsp, hst, hdt, hsound, by simp [hm], rest⟩

theorem setFault (h : Unchanged m s t) (hm : m.fault = true) (f : Option FaultRecord) :
    Unchanged m s (t.setFault f) := by
  obtain ⟨hv, hi, hpc, hsp, hst, hdt, hsound, hfb, -, rest⟩ := h
  exact ⟨hv, hi, hpc, hsp, hst, hdt, hsound, hfb, by simp [hm], rest⟩

theorem countDraw (h : Unchanged m s t) (hm : m.draws = true) : Unchanged m s t.countDraw := by
  obtain ⟨hv, hi, hpc, hsp, hst, hdt, hsound, hfb, hf, -, rest⟩ := h
  exact ⟨hv, hi, hpc, hsp, hst, hdt, hsound, hfb, hf, by simp [hm], rest⟩

/-- Bytes that lie inside the listed range. -/
theorem setMem_writeBytes (h : Unchanged m s t) {a : Nat} {bs : List Byte} (ha : m.stored.1 ≤ a)
    (hlen : a + bs.length ≤ m.stored.1 + m.stored.2) : Unchanged m s (t.setMem (t.mem.writeBytes a bs)) := by
  obtain ⟨hv, hi, hpc, hsp, hst, hdt, hsound, hfb, hf, hd, hmem, rest⟩ := h
  refine ⟨hv, hi, hpc, hsp, hst, hdt, hsound, hfb, hf, hd, fun k hk => ?_, rest⟩
  rw [State.setMem_mem, Memory.read_writeBytes_outside _ _ _ _ (by omega), hmem k hk]

theorem setResultAndFlag (h : Unchanged m s t) {x : Reg} (hx : x ∈ m.regs) (hf : VF ∈ m.regs) (b f : Byte) :
    Unchanged m s (t.setResultAndFlag x b f) :=
  (h.setV hx b).setV hf f

theorem bumpIndex (h : Unchanged m s t) (hm : m.index = true) (x : Reg) : Unchanged m s (t.bumpIndex x) :=
  h.setIndex hm _

end Unchanged

/-- A hard failure, where the list has the latch. -/
theorem raise_unchanged {m : MayChange} (hm : m.fault = true) (c : Cause) (i : Instr) (s : State) :
    ∃ t, raise c i s = .next t ∧ Unchanged m s t :=
  ⟨_, raise_eq c i s, (Unchanged.refl m s).setFault hm _⟩

/-- A skip, where the list has `pc`. -/
theorem skipIf_unchanged {m : MayChange} (hm : m.pc = true) (c : Bool) (s : State) :
    ∃ t, skipIf c s = .next t ∧ Unchanged m s t :=
  ⟨_, skipIf_eq c s, (Unchanged.refl m s).setPc hm _⟩

/-- Every instruction completes, and writes nothing but what its row lists (R37). -/
theorem exec_unchanged (i : Instr) (s : State) : ∃ t, exec i s = .next t ∧ Unchanged (mayChange i s) s t := by
  have hrefl := Unchanged.refl (mayChange i s) s
  cases i with
  | clearScreen => exact ⟨_, rfl, hrefl.setFb rfl _⟩
  | ret =>
    by_cases h : 0 < s.sp.val
    · exact ⟨_, exec_ret_of_pos h, (hrefl.setSp rfl _).setPc rfl _⟩
    · rw [exec_ret_of_empty h]; exact raise_unchanged rfl _ _ s
  | call nnn =>
    by_cases h : s.sp.val < 16
    · exact ⟨_, exec_call_of_lt h, ((hrefl.setStack rfl _).setSp rfl _).setPc rfl _⟩
    · rw [exec_call_of_full h]; exact raise_unchanged rfl _ _ s
  | jump | jumpOffset => exact ⟨_, rfl, hrefl.setPc rfl _⟩
  | skipEqImm | skipNeqImm | skipEqReg | skipNeqReg => exact skipIf_unchanged rfl _ s
  | setImm x | addImm x | move x | orRegs x | andRegs x | xorRegs x | getDelay x =>
    exact ⟨_, rfl, hrefl.setV (List.mem_singleton_self x) _⟩
  | addRegs x | subRegs x | shiftRight x | subRegsReverse x | shiftLeft x =>
    exact ⟨_, rfl, hrefl.setResultAndFlag (by simp [mayChange]) (by simp [mayChange]) _ _⟩
  | randomMasked x => exact ⟨_, rfl, (hrefl.setV (List.mem_singleton_self x) _).countDraw rfl⟩
  | setIndex | addIndex => exact ⟨_, rfl, hrefl.setIndex rfl _⟩
  | spriteAddress x =>
    by_cases h : (s.readV x).toNat ≤ 15
    · exact ⟨_, exec_spriteAddress_of_le h, hrefl.setIndex rfl _⟩
    · exact ⟨_, exec_spriteAddress_of_gt h, (hrefl.setIndex rfl _).countDraw rfl⟩
  | drawSprite x y n =>
    by_cases h : InBounds s.index n.val
    · exact ⟨_, exec_drawSprite_in h, (hrefl.setFb rfl _).setV (List.mem_singleton_self VF) _⟩
    · rw [exec_drawSprite_out h]; exact raise_unchanged rfl _ _ s
  | skipKeyDown x =>
    by_cases h : (s.readV x).toNat < 16
    · rw [exec_skipKeyDown_of_lt h]; exact skipIf_unchanged rfl _ s
    · rw [exec_skipKeyDown_of_ge h]; exact raise_unchanged rfl _ _ s
  | skipKeyUp x =>
    by_cases h : (s.readV x).toNat < 16
    · rw [exec_skipKeyUp_of_lt h]; exact skipIf_unchanged rfl _ s
    · rw [exec_skipKeyUp_of_ge h]; exact raise_unchanged rfl _ _ s
  | waitKey x =>
    cases h : lowestKey s.key with
    | none => exact ⟨_, exec_waitKey_of_none h, hrefl.setPc rfl _⟩
    | some k => exact ⟨_, exec_waitKey_of_some h, hrefl.setV (List.mem_singleton_self x) _⟩
  | setDelay => exact ⟨_, rfl, hrefl.setDt rfl _⟩
  | setSound => exact ⟨_, rfl, hrefl.setSt rfl _⟩
  | storeBcd x =>
    by_cases h : InBounds s.index 3
    · exact ⟨_, exec_storeBcd_in h, hrefl.setMem_writeBytes le_rfl le_rfl⟩
    · rw [exec_storeBcd_out h]; exact raise_unchanged rfl _ _ s
  | storeRegs x =>
    by_cases h : InBounds s.index (x.val + 1)
    · refine ⟨_, exec_storeRegs_in h, (hrefl.setMem_writeBytes le_rfl ?_).bumpIndex rfl x⟩
      rw [State.firstRegs_length]; exact le_rfl
    · rw [exec_storeRegs_out h]; exact raise_unchanged rfl _ _ s
  | loadRegs x =>
    by_cases h : InBounds s.index (x.val + 1)
    · refine ⟨_, exec_loadRegs_in h, (hrefl.loadFirst fun r hr => ?_).bumpIndex rfl x⟩
      rw [Memory.readBytes_length] at hr
      have hle : r ≤ x := Fin.le_def.2 (by omega)
      simp [mayChange, hle]
    · rw [exec_loadRegs_out h]; exact raise_unchanged rfl _ _ s

/-- TICK writes only the timers (R258). -/
theorem tickCommand_unchanged (s : State) : Unchanged { dt := true, st := true } s (tickCommand s).1 := by
  cases h : s.fault with
  | some f => rw [tickCommand_of_latched h]; exact .refl _ s
  | none => rw [tickCommand_of_running h]; exact ((Unchanged.refl _ s).setDt rfl _).setSt rfl _

/-- LOAD writes only memory, or the latch (R293). -/
theorem loadCommand_unchanged (font : Font) (bs : List Byte) (s : State) :
    Unchanged { stored := (0, 4096), fault := true } s (loadCommand font bs s).1 := by
  have hrefl := Unchanged.refl { stored := (0, 4096), fault := true } s
  cases h : s.fault with
  | some f => rw [loadCommand_of_latched h]; exact hrefl
  | none =>
    by_cases hl : 3584 < bs.length
    · rw [loadCommand_of_tooLong h hl]; exact hrefl.setFault rfl _
    · rw [loadCommand_of_fits h hl]
      have himage : Config.entry.toNat + bs.length ≤ 0 + 4096 := by rw [entry_toNat]; omega
      exact (hrefl.setMem_writeBytes (Nat.zero_le _) himage).setMem_writeBytes (Nat.zero_le _) (by simp)

/-- SETKEY writes only the key flags, or the latch (R261). -/
theorem setKeyCommand_unchanged (k : Nat) (p : Bool) (s : State) :
    { (setKeyCommand k p s).1 with key := s.key, fault := s.fault } = s := by
  cases h : s.fault with
  | some f => rw [setKeyCommand_of_latched h, ← h]
  | none =>
    by_cases hk : k < 16
    · rw [setKeyCommand_of_lt h hk, ← h]; rfl
    · rw [setKeyCommand_of_ge h hk, ← h]; rfl

/-- Settles O47: the frame of the instructions, then of the three commands. -/
theorem onlyTheListedWritersWrite : Obligations.OnlyTheListedWritersWrite :=
  ⟨exec_unchanged, tickCommand_unchanged, fun s font bs => loadCommand_unchanged font bs s,
    fun s k p => setKeyCommand_unchanged k p s⟩

/-! ## The sound timer is never read (R30) -/

theorem skipIf_setSt (c : Bool) (s : State) (b : Byte) :
    ∃ t, skipIf c s = .next t ∧ skipIf c (s.setSt b) = .next (t.setSt b) :=
  ⟨_, skipIf_eq c s, skipIf_eq c (s.setSt b)⟩

/-- An instruction other than `set-sound-timer` does the same with another value in `st`, and leaves that value. -/
theorem exec_setSt (i : Instr) (hi : ∀ x, i ≠ .setSound x) (s : State) (b : Byte) :
    ∃ t, exec i s = .next t ∧ exec i (s.setSt b) = .next (t.setSt b) := by
  cases i with
  | setSound x => exact absurd rfl (hi x)
  | ret =>
    by_cases h : 0 < s.sp.val
    · exact ⟨_, exec_ret_of_pos h, exec_ret_of_pos (s := s.setSt b) h⟩
    · exact ⟨_, exec_ret_of_empty h, exec_ret_of_empty (s := s.setSt b) h⟩
  | call nnn =>
    by_cases h : s.sp.val < 16
    · exact ⟨_, exec_call_of_lt h, exec_call_of_lt (s := s.setSt b) h⟩
    · exact ⟨_, exec_call_of_full h, exec_call_of_full (s := s.setSt b) h⟩
  | skipEqImm | skipNeqImm | skipEqReg | skipNeqReg => exact skipIf_setSt _ s b
  | skipKeyDown x =>
    by_cases h : (s.readV x).toNat < 16
    · rw [exec_skipKeyDown_of_lt h, exec_skipKeyDown_of_lt (s := s.setSt b) h]; exact skipIf_setSt _ s b
    · exact ⟨_, exec_skipKeyDown_of_ge h, exec_skipKeyDown_of_ge (s := s.setSt b) h⟩
  | skipKeyUp x =>
    by_cases h : (s.readV x).toNat < 16
    · rw [exec_skipKeyUp_of_lt h, exec_skipKeyUp_of_lt (s := s.setSt b) h]; exact skipIf_setSt _ s b
    · exact ⟨_, exec_skipKeyUp_of_ge h, exec_skipKeyUp_of_ge (s := s.setSt b) h⟩
  | waitKey x =>
    cases h : lowestKey s.key with
    | none => exact ⟨_, exec_waitKey_of_none h, exec_waitKey_of_none (s := s.setSt b) h⟩
    | some k => exact ⟨_, exec_waitKey_of_some h, exec_waitKey_of_some (s := s.setSt b) h⟩
  | spriteAddress x =>
    by_cases h : (s.readV x).toNat ≤ 15
    · exact ⟨_, exec_spriteAddress_of_le h, exec_spriteAddress_of_le (s := s.setSt b) h⟩
    · exact ⟨_, exec_spriteAddress_of_gt h, exec_spriteAddress_of_gt (s := s.setSt b) h⟩
  | drawSprite x y n =>
    by_cases h : InBounds s.index n.val
    · exact ⟨_, exec_drawSprite_in h, exec_drawSprite_in (s := s.setSt b) h⟩
    · exact ⟨_, exec_drawSprite_out h, exec_drawSprite_out (s := s.setSt b) h⟩
  | storeBcd x =>
    by_cases h : InBounds s.index 3
    · exact ⟨_, exec_storeBcd_in h, exec_storeBcd_in (s := s.setSt b) h⟩
    · exact ⟨_, exec_storeBcd_out h, exec_storeBcd_out (s := s.setSt b) h⟩
  | storeRegs x =>
    by_cases h : InBounds s.index (x.val + 1)
    · exact ⟨_, exec_storeRegs_in h, exec_storeRegs_in (s := s.setSt b) h⟩
    · exact ⟨_, exec_storeRegs_out h, exec_storeRegs_out (s := s.setSt b) h⟩
  | loadRegs x =>
    by_cases h : InBounds s.index (x.val + 1)
    · exact ⟨_, exec_loadRegs_in h, exec_loadRegs_in (s := s.setSt b) h⟩
    · exact ⟨_, exec_loadRegs_out h, exec_loadRegs_out (s := s.setSt b) h⟩
  | _ => exact ⟨_, rfl, rfl⟩

/-- Settles O48: `set-sound-timer` writes the same value whatever it finds, every other instruction keeps what it finds. -/
theorem soundTimerIsNeverRead : Obligations.SoundTimerIsNeverRead := by
  intro i s t b ht
  by_cases hi : ∃ x, i = .setSound x
  · obtain ⟨x, rfl⟩ := hi
    cases ht
    exact ⟨s.setSt (s.readV x), rfl, rfl, fun _ => rfl, fun hne => absurd rfl (hne x)⟩
  · have hne : ∀ x, i ≠ .setSound x := fun x hx => hi ⟨x, hx⟩
    obtain ⟨u, hu, hb⟩ := exec_setSt i hne s b
    cases hu.symm.trans ht
    exact ⟨t.setSt b, hb, rfl, fun h => absurd h hi, fun _ => rfl⟩

end Sys2Proof.Machine
end

section
/-! PROOFS of the statements on memory (`spec/20_memory.md` R60, R69, R77): where a fetch fails, that a store over the next
instruction is what the next fetch reads, and that every step keeps memory's canonical form. -/

namespace Sys2Proof.Machine

/-! ## An instruction fails as R241 lists, or completes -/

/-- What an instruction that does not fail leaves: the latch as it was, and memory as it was but for bytes stored in bounds from
`I` up (none, unless it is a store). -/
structure Completed (s t : State) : Prop where
  fault_eq : t.fault = s.fault
  stored : ∃ bs : List Byte, InBounds s.index bs.length ∧ t.mem = s.mem.writeBytes s.index.toNat bs

namespace Completed

variable {s t : State}

/-- Nothing stored. -/
theorem of_mem_eq (hf : t.fault = s.fault) (hm : t.mem = s.mem) : Completed s t := ⟨hf, [], .inl rfl, hm⟩

theorem mem_wf (h : Completed s t) (hs : s.mem.wf = true) : t.mem.wf = true := by
  obtain ⟨bs, hin, hmem⟩ := h.stored
  rw [hmem]
  exact storeAtIndex_wf (storeAtIndex_in bs s hin) hs

end Completed

/-- The failure of `i` in `s` is the one `instrFailure` gives, and then `i` only raises it; else `i` completes. -/
def FailsOrCompletes (i : Instr) (s : State) : Prop :=
  (∃ c, instrFailure i s = some c ∧ exec i s = raise c i s) ∨
  (instrFailure i s = none ∧ ∃ t, exec i s = .next t ∧ Completed s t)

section FailsOrCompletes

variable {i : Instr} {s t : State}

theorem FailsOrCompletes.fails {c : Cause} (hi : instrFailure i s = some c) (h : exec i s = raise c i s) :
    FailsOrCompletes i s := .inl ⟨c, hi, h⟩

/-- An instruction that is no store. -/
theorem FailsOrCompletes.keeps (hi : instrFailure i s = none) (h : exec i s = .next t) (hf : t.fault = s.fault)
    (hm : t.mem = s.mem) : FailsOrCompletes i s := .inr ⟨hi, t, h, .of_mem_eq hf hm⟩

/-- A skip, taken or not. -/
theorem FailsOrCompletes.skips {c : Bool} (hi : instrFailure i s = none) (h : exec i s = skipIf c s) :
    FailsOrCompletes i s := .keeps hi (h.trans (skipIf_eq c s)) rfl rfl

end FailsOrCompletes

/-- Every instruction, from every state (R241, R246). -/
theorem exec_failsOrCompletes (i : Instr) (s : State) : FailsOrCompletes i s := by
  cases i with
  | ret =>
    by_cases h : 0 < s.sp.val
    · exact .keeps (if_neg (by omega)) (exec_ret_of_pos h) rfl rfl
    · exact .fails (if_pos (by omega)) (exec_ret_of_empty h)
  | call nnn =>
    by_cases h : s.sp.val < 16
    · exact .keeps (if_neg (by omega)) (exec_call_of_lt h) rfl rfl
    · exact .fails (if_pos (by omega)) (exec_call_of_full h)
  | skipEqImm | skipNeqImm | skipEqReg | skipNeqReg => exact .skips rfl rfl
  | skipKeyDown x =>
    by_cases h : (s.readV x).toNat < 16
    · exact .skips (if_neg (Nat.not_lt.2 (Nat.le_of_lt_succ h))) (exec_skipKeyDown_of_lt h)
    · exact .fails (if_pos (Nat.not_lt.1 h)) (exec_skipKeyDown_of_ge h)
  | skipKeyUp x =>
    by_cases h : (s.readV x).toNat < 16
    · exact .skips (if_neg (Nat.not_lt.2 (Nat.le_of_lt_succ h))) (exec_skipKeyUp_of_lt h)
    · exact .fails (if_pos (Nat.not_lt.1 h)) (exec_skipKeyUp_of_ge h)
  | waitKey x =>
    cases h : lowestKey s.key with
    | none => exact .keeps rfl (exec_waitKey_of_none h) rfl rfl
    | some k => exact .keeps rfl (exec_waitKey_of_some h) rfl rfl
  | spriteAddress x =>
    by_cases h : (s.readV x).toNat ≤ 15
    · exact .keeps rfl (exec_spriteAddress_of_le h) rfl rfl
    · exact .keeps rfl (exec_spriteAddress_of_gt h) rfl rfl
  | drawSprite x y n =>
    by_cases h : InBounds s.index n.val
    · exact .keeps (if_neg (by omega)) (exec_drawSprite_in h) rfl rfl
    · exact .fails (if_pos (by omega)) (exec_drawSprite_out h)
  | storeBcd x =>
    by_cases h : InBounds s.index 3
    · exact .inr ⟨if_neg (by omega), _, exec_storeBcd_in h, rfl, bcdDigits (s.readV x), h, rfl⟩
    · exact .fails (if_pos (by omega)) (exec_storeBcd_out h)
  | storeRegs x =>
    by_cases h : InBounds s.index (x.val + 1)
    · have hin : InBounds s.index (s.firstRegs x).length := by rwa [State.firstRegs_length]
      exact .inr ⟨if_neg (by omega), _, exec_storeRegs_in h, rfl, s.firstRegs x, hin, rfl⟩
    · exact .fails (if_pos (by omega)) (exec_storeRegs_out h)
  | loadRegs x =>
    by_cases h : InBounds s.index (x.val + 1)
    · exact .keeps (if_neg (by omega)) (exec_loadRegs_in h) rfl rfl
    · exact .fails (if_pos (by omega)) (exec_loadRegs_out h)
  | _ => exact .keeps rfl rfl rfl rfl

/-- A failed fetch is a failure of no instruction (R241). -/
theorem instrFailure_ne_fetchOutOfBounds (i : Instr) (s : State) : instrFailure i s ≠ some .fetchOutOfBounds := by
  unfold instrFailure
  repeat' split
  all_goals simp

/-- An instruction that starts with a clear latch never leaves it at `FetchOutOfBounds`. -/
theorem exec_no_fetchOutOfBounds (i : Instr) {s : State} (hs : s.fault = none) :
    ∃ t, exec i s = .next t ∧ ∀ f, t.fault = some f → f.cause ≠ .fetchOutOfBounds := by
  rcases exec_failsOrCompletes i s with ⟨c, hc, h⟩ | ⟨-, t, h, hcomp⟩
  · refine ⟨_, h, fun f hf hcause => instrFailure_ne_fetchOutOfBounds i s ?_⟩
    cases hf
    exact hc.trans (congrArg some hcause)
  · refine ⟨t, h, fun f hf => ?_⟩
    rw [hcomp.fault_eq, hs] at hf
    cases hf

/-- Settles O2, by the four things a step can do: a good fetch leads to an advance or to an instruction. -/
theorem fetchFailsExactlyAbove4094 : Obligations.FetchFailsExactlyAbove4094 := by
  intro s hs
  rcases step_cases s with ⟨f, hf, -⟩ | ⟨-, hop, h⟩ | ⟨op, -, hop, -, h⟩ | ⟨op, i, -, hop, -, h⟩
  · rw [hs] at hf
    cases hf
  · refine ⟨fun _ => h, fun hpc => ?_⟩
    rw [fetch_in s hpc] at hop
    cases hop
  · refine ⟨fun hpc => absurd (pc_le_of_fetch hop) (Nat.not_le.2 hpc), fun _ => ⟨_, h, fun f hf => ?_⟩⟩
    rw [advance_fault, hs] at hf
    cases hf
  · refine ⟨fun hpc => absurd (pc_le_of_fetch hop) (Nat.not_le.2 hpc), fun _ => ?_⟩
    rw [h]
    exact exec_no_fetchOutOfBounds i hs

/-! ## Memory's canonical form (R33, R60) -/

theorem exec_keeps_mem_wf {i : Instr} {s t : State} (hs : s.mem.wf = true) (ht : exec i s = .next t) :
    t.mem.wf = true := by
  rcases exec_failsOrCompletes i s with ⟨c, -, h⟩ | ⟨-, u, h, hcomp⟩ <;> cases h.symm.trans ht
  · exact hs
  · exact hcomp.mem_wf hs

/-- Settles O51: of the four things a step can do, only an instruction writes memory. -/
theorem stepKeepsMemoryCanonical : Obligations.StepKeepsMemoryCanonical := by
  intro s t hs ht
  rcases step_cases s with ⟨f, -, h⟩ | ⟨-, -, h⟩ | ⟨op, -, -, -, h⟩ | ⟨op, i, -, -, -, h⟩ <;> rw [h] at ht
  · cases ht
  · cases ht
    exact hs
  · cases ht
    exact hs
  · exact exec_keeps_mem_wf (s := advance s) hs ht

/-! ## A store over the next instruction (R77) -/

/-- What `store-registers` writes: at `I + r` stands V[r], for every r up to X (R184). -/
theorem read_storedRegs (s : State) {x r : Reg} (hr : r ≤ x) :
    Memory.read (s.mem.writeBytes s.index.toNat (s.firstRegs x)) (s.index.toNat + r.val) = s.v[r] := by
  rw [Memory.read_writeBytes, if_pos (Nat.le_add_right ..), Nat.add_sub_cancel_left, State.firstRegs_get s x r hr,
    Option.getD_some]

/-- Settles O28: the two bytes of the next instruction are among those the store has written. -/
theorem nextFetchSeesTheStore : Obligations.NextFetchSeesTheStore := by
  intro x r r' s hx hsucc hr' hpc
  have hle : r'.val ≤ x.val := hr'
  have hr : r ≤ x := Fin.le_def.2 (by omega)
  have hnext : s.pc.toNat + 1 = s.index.toNat + r'.val := by omega
  refine ⟨_, exec_storeRegs_in (.inr (by omega)), ?_⟩
  rw [fetch_in _ (by simp only [State.bumpIndex_pc, State.setMem_pc]; omega)]
  simp only [State.bumpIndex_pc, State.bumpIndex_mem, State.setMem_pc, State.setMem_mem]
  rw [hnext, hpc, read_storedRegs s hr, read_storedRegs s hr']

end Sys2Proof.Machine
end

section
/-! PROOFS of the statements on decoding and the cycle (`spec/30_encoding.md` R90 to R104, `spec/60_exceptions.md` R247). -/

namespace Sys2Proof

/-! ## Decode of encode (R94 to R98, R100) -/

/-- Every instruction, by its own lemma of the family. -/
theorem roundTrip (i : Instr) : Laws.RoundTrip.Statement i := by
  cases i with
  | clearScreen => exact Laws.RoundTrip.clearScreen
  | ret => exact Laws.RoundTrip.ret
  | jump nnn => exact Laws.RoundTrip.jump nnn
  | call nnn => exact Laws.RoundTrip.call nnn
  | skipEqImm x kk => exact Laws.RoundTrip.skipEqImm x kk
  | skipNeqImm x kk => exact Laws.RoundTrip.skipNeqImm x kk
  | skipEqReg x y => exact Laws.RoundTrip.skipEqReg x y
  | setImm x kk => exact Laws.RoundTrip.setImm x kk
  | addImm x kk => exact Laws.RoundTrip.addImm x kk
  | move x y => exact Laws.RoundTrip.move x y
  | orRegs x y => exact Laws.RoundTrip.orRegs x y
  | andRegs x y => exact Laws.RoundTrip.andRegs x y
  | xorRegs x y => exact Laws.RoundTrip.xorRegs x y
  | addRegs x y => exact Laws.RoundTrip.addRegs x y
  | subRegs x y => exact Laws.RoundTrip.subRegs x y
  | shiftRight x y => exact Laws.RoundTrip.shiftRight x y
  | subRegsReverse x y => exact Laws.RoundTrip.subRegsReverse x y
  | shiftLeft x y => exact Laws.RoundTrip.shiftLeft x y
  | skipNeqReg x y => exact Laws.RoundTrip.skipNeqReg x y
  | setIndex nnn => exact Laws.RoundTrip.setIndex nnn
  | jumpOffset nnn => exact Laws.RoundTrip.jumpOffset nnn
  | randomMasked x kk => exact Laws.RoundTrip.randomMasked x kk
  | drawSprite x y n => exact Laws.RoundTrip.drawSprite x y n
  | skipKeyDown x => exact Laws.RoundTrip.skipKeyDown x
  | skipKeyUp x => exact Laws.RoundTrip.skipKeyUp x
  | getDelay x => exact Laws.RoundTrip.getDelay x
  | waitKey x => exact Laws.RoundTrip.waitKey x
  | setDelay x => exact Laws.RoundTrip.setDelay x
  | setSound x => exact Laws.RoundTrip.setSound x
  | addIndex x => exact Laws.RoundTrip.addIndex x
  | spriteAddress x => exact Laws.RoundTrip.spriteAddress x
  | storeBcd x => exact Laws.RoundTrip.storeBcd x
  | storeRegs x => exact Laws.RoundTrip.storeRegs x
  | loadRegs x => exact Laws.RoundTrip.loadRegs x

@[simp] theorem Instr.wellFormed_eq_true (i : Instr) : i.wellFormed = true := (roundTrip i).1

@[simp] theorem decodeWord_encode (i : Instr) : decodeWord (encode i) = some i := (roundTrip i).2.1

theorem decode_encodeBytes_append (i : Instr) (rest : List Byte) : decode (encodeBytes i ++ rest) = .ok (i, rest) :=
  (roundTrip i).2.2 rest

/-- The decoder on two bytes and more is `decodeWord` on their word (R65). -/
theorem decode_eq_ok_iff {hi lo : Byte} {bs rest : List Byte} {i : Instr} :
    decode (hi :: lo :: bs) = .ok (i, rest) ↔ decodeWord (wordOfBytes hi lo) = some i ∧ bs = rest := by
  cases h : decodeWord (wordOfBytes hi lo) <;> simp [decode, h]

/-- The table's numbering of a word is the word's own. -/
@[simp] theorem decodeTableWord_toNat (op : Word) : decodeTableWord 16 op.toNat = decodeWord op := by
  have hop : BitVec.ofNat 16 (op.toNat % 2 ^ 16) = op := by
    rw [Nat.mod_eq_of_lt op.isLt, BitVec.ofNat_toNat, BitVec.setWidth_eq]
  rw [decodeTableWord, hop, decode, wordOfBytes_high_low]
  cases decodeWord op <;> rfl

/-- Settles O6, by the round trip of each instruction. -/
theorem decodeOfEncode : Obligations.DecodeOfEncode := fun i =>
  ⟨i.wellFormed_eq_true, (decodeTableWord_toNat (encode i)).trans (decodeWord_encode i), decode_encodeBytes_append i⟩

/-! ## Encode of decode (R100): each arm of the decoder fixes the fields that its format does not read -/

/-- The sixteen families, in the order of the decoder's arms (R99). -/
theorem fam_cases (f : BitVec 4) :
    f = 0x0 ∨ f = 0x1 ∨ f = 0x2 ∨ f = 0x3 ∨ f = 0x4 ∨ f = 0x5 ∨ f = 0x6 ∨ f = 0x7 ∨
    f = 0x8 ∨ f = 0x9 ∨ f = 0xA ∨ f = 0xB ∨ f = 0xC ∨ f = 0xD ∨ f = 0xE ∨ f = 0xF := by
  revert f; decide

section EncodeOfDecode

variable {op : Word} {i : Instr} {f n : BitVec 4} {kk : Byte}

theorem formatA_of_fields (hf : famOf op = f) : formatA f (nnnOf op) = op := by
  rw [← hf, formatA_fields]

theorem formatXK_of_fields (hf : famOf op = f) (hk : kkOf op = kk) : formatXK f (xOf op) kk = op := by
  rw [← hf, ← hk, formatXK_fields]

theorem formatXYN_of_fields (hf : famOf op = f) (hn : nOf op = n) : formatXYN f (xOf op) (yOf op) n = op := by
  rw [← hf, ← hn, formatXYN_fields]

theorem encode_of_decodeFixed (h : decodeFixed op = some i) : encode i = op := by
  unfold decodeFixed at h
  split at h
  · next hop => cases h; exact hop.symm
  · split at h
    · next hop => cases h; exact hop.symm
    · cases h

theorem encode_of_decodeAlu (hf : famOf op = 0x8) (h : decodeAlu op = some i) : encode i = op := by
  unfold decodeAlu at h
  split at h <;> cases h <;> exact formatXYN_of_fields hf ‹_›

theorem encode_of_decodeKeys (hf : famOf op = 0xE) (h : decodeKeys op = some i) : encode i = op := by
  unfold decodeKeys at h
  split at h <;> cases h <;> exact formatXK_of_fields hf ‹_›

theorem encode_of_decodeMisc (hf : famOf op = 0xF) (h : decodeMisc op = some i) : encode i = op := by
  unfold decodeMisc at h
  split at h <;> cases h <;> exact formatXK_of_fields hf ‹_›

/-- One case per family: what its arm gives has the family's number and the fields of the word. -/
theorem encode_of_decodeWord (h : decodeWord op = some i) : encode i = op := by
  rcases fam_cases (famOf op) with hf | hf | hf | hf | hf | hf | hf | hf | hf | hf | hf | hf | hf | hf | hf | hf <;>
    rw [decodeWord, hf] at h
  · exact encode_of_decodeFixed h
  · cases h; exact formatA_of_fields hf
  · cases h; exact formatA_of_fields hf
  · cases h; exact formatXK_of_fields hf rfl
  · cases h; exact formatXK_of_fields hf rfl
  · obtain ⟨hn, ⟨⟩⟩ := Option.ite_none_right_eq_some.1 h
    exact formatXYN_of_fields hf hn
  · cases h; exact formatXK_of_fields hf rfl
  · cases h; exact formatXK_of_fields hf rfl
  · exact encode_of_decodeAlu hf h
  · obtain ⟨hn, ⟨⟩⟩ := Option.ite_none_right_eq_some.1 h
    exact formatXYN_of_fields hf hn
  · cases h; exact formatA_of_fields hf
  · cases h; exact formatA_of_fields hf
  · cases h; exact formatXK_of_fields hf rfl
  · cases h; exact formatXYN_of_fields hf rfl
  · exact encode_of_decodeKeys hf h
  · exact encode_of_decodeMisc hf h

end EncodeOfDecode

/-- Settles O7, by the arms of the decoder. -/
theorem encodeOfDecode : Obligations.EncodeOfDecode := fun _ _ => encode_of_decodeWord

/-! ## The words that decode to nothing (R99, R104), family by family -/

section Unlisted

open Sys2Proof.Claims

variable {op : Word}

theorem nOf_eq_zero_iff : nOf op = 0#4 ↔ op.toNat % 16 = 0 := by
  rw [← nOf_toNat]; exact BitVec.toNat_inj.symm

theorem decodeFixed_eq_none_iff : decodeFixed op = none ↔ op.toNat ≠ 0x00E0 ∧ op.toNat ≠ 0x00EE := by
  unfold decodeFixed
  split
  · next h => simp [h]
  · split
    · next h => simp [h]
    · simp only [true_iff]; bv_omega

theorem decodeAlu_eq_none_iff :
    decodeAlu op = none ↔ op.toNat % 16 ∈ [0x8, 0x9, 0xA, 0xB, 0xC, 0xD, 0xF] := by
  rw [← nOf_toNat]
  unfold decodeAlu
  split
  case h_10 => simp only [imp_false, true_iff, List.mem_cons, List.not_mem_nil, or_false] at *; bv_omega
  all_goals simp [*]

theorem decodeKeys_eq_none_iff : decodeKeys op = none ↔ op.toNat % 256 ∉ [0x9E, 0xA1] := by
  rw [← kkOf_toNat]
  unfold decodeKeys
  split
  case h_3 => simp only [imp_false, true_iff, List.mem_cons, List.not_mem_nil, or_false, not_or] at *; bv_omega
  all_goals simp [*]

theorem decodeMisc_eq_none_iff :
    decodeMisc op = none ↔ op.toNat % 256 ∉ [0x07, 0x0A, 0x15, 0x18, 0x1E, 0x29, 0x33, 0x55, 0x65] := by
  rw [← kkOf_toNat]
  unfold decodeMisc
  split
  case h_10 => simp only [imp_false, true_iff, List.mem_cons, List.not_mem_nil, or_false, not_or] at *; bv_omega
  all_goals simp [*]

theorem decodeWord_eq_none_iff : decodeWord op = none ↔ Unlisted op := by
  rcases fam_cases (famOf op) with hf | hf | hf | hf | hf | hf | hf | hf | hf | hf | hf | hf | hf | hf | hf | hf <;>
    have hd : op.toNat / 0x1000 = _ := (famOf_toNat op).symm.trans (congrArg BitVec.toNat hf) <;>
    rw [decodeWord, hf] <;>
    simp [Unlisted, hd, nOf_eq_zero_iff, decodeFixed_eq_none_iff, decodeAlu_eq_none_iff, decodeKeys_eq_none_iff,
      decodeMisc_eq_none_iff]

end Unlisted

/-- Settles O4, by the sixteen families. -/
theorem unknownWordsAreTheListedOnes : Obligations.UnknownWordsAreTheListedOnes := fun _ => decodeWord_eq_none_iff

/-! ## The opcode map (R98) -/

/-- The bits of its word that select an instruction, by its format (R95, R98). -/
def Instr.mask : Instr → Word
  | .clearScreen | .ret => 0xFFFF
  | .jump _ | .call _ | .skipEqImm _ _ | .skipNeqImm _ _ | .setImm _ _ | .addImm _ _ | .setIndex _ | .jumpOffset _
  | .randomMasked _ _ | .drawSprite _ _ _ => 0xF000
  | .skipEqReg _ _ | .move _ _ | .orRegs _ _ | .andRegs _ _ | .xorRegs _ _ | .addRegs _ _ | .subRegs _ _
  | .shiftRight _ _ | .subRegsReverse _ _ | .shiftLeft _ _ | .skipNeqReg _ _ => 0xF00F
  | .skipKeyDown _ | .skipKeyUp _ | .getDelay _ | .waitKey _ | .setDelay _ | .setSound _ | .addIndex _
  | .spriteAddress _ | .storeBcd _ | .storeRegs _ | .loadRegs _ => 0xF0FF

/-- The row an instruction stands in: its name, its mask, and what its own word has under the mask. -/
def Instr.row (i : Instr) : OpcodeRow := ⟨i.mnemonic, i.mask, encode i &&& i.mask⟩

theorem famOf_and (op m : Word) : famOf (op &&& m) = famOf op &&& famOf m := BitVec.extractLsb'_and

theorem nOf_and (op m : Word) : nOf (op &&& m) = nOf op &&& nOf m := BitVec.extractLsb'_and

theorem kkOf_and (op m : Word) : kkOf (op &&& m) = kkOf op &&& kkOf m := BitVec.extractLsb'_and

theorem formatA_and_F000 (f : BitVec 4) (a : Addr) : formatA f a &&& 0xF000 = formatA f 0 :=
  BitVec.and_append.trans (congrArg₂ _ BitVec.and_allOnes BitVec.and_zero)

theorem formatXK_and_F000 (f : BitVec 4) (x : Reg) (kk : Byte) : formatXK f x kk &&& 0xF000 = formatA f 0 :=
  formatA_and_F000 f _

theorem formatXYN_and_F000 (f : BitVec 4) (x y : Reg) (n : BitVec 4) : formatXYN f x y n &&& 0xF000 = formatA f 0 :=
  formatA_and_F000 f _

theorem formatXK_and_F0FF (f : BitVec 4) (x : Reg) (kk : Byte) : formatXK f x kk &&& 0xF0FF = formatXK f 0 kk :=
  BitVec.and_append.trans (congrArg₂ _ BitVec.and_allOnes (BitVec.and_append.trans
    (congrArg₂ _ BitVec.and_zero BitVec.and_allOnes)))

theorem formatXYN_and_F00F (f : BitVec 4) (x y : Reg) (n : BitVec 4) :
    formatXYN f x y n &&& 0xF00F = formatXYN f 0 0 n :=
  BitVec.and_append.trans (congrArg₂ _ BitVec.and_allOnes (BitVec.and_append.trans
    (congrArg₂ _ BitVec.and_zero (BitVec.and_append.trans (congrArg₂ _ BitVec.and_zero BitVec.and_allOnes)))))

theorem Instr.row_mem (i : Instr) : i.row ∈ opcodeRows := by
  cases i with
  | clearScreen | ret => decide
  | jump | call | setIndex | jumpOffset =>
    simp only [row, mnemonic, mask, encode, formatA_and_F000]; decide
  | skipEqImm | skipNeqImm | setImm | addImm | randomMasked =>
    simp only [row, mnemonic, mask, encode, formatXK_and_F000]; decide
  | drawSprite =>
    simp only [row, mnemonic, mask, encode, formatXYN_and_F000]; decide
  | skipEqReg | move | orRegs | andRegs | xorRegs | addRegs | subRegs | shiftRight | subRegsReverse | shiftLeft
  | skipNeqReg =>
    simp only [row, mnemonic, mask, encode, formatXYN_and_F00F]; decide
  | skipKeyDown | skipKeyUp | getDelay | waitKey | setDelay | setSound | addIndex | spriteAddress | storeBcd
  | storeRegs | loadRegs =>
    simp only [row, mnemonic, mask, encode, formatXK_and_F0FF]; decide

theorem opcodeRows_mnemonics_nodup : (opcodeRows.map OpcodeRow.mnemonic).Nodup := by decide

/-- A word under two rows would make them agree on the bits that both read. -/
theorem opcodeRows_disagree : ∀ r ∈ opcodeRows, ∀ r' ∈ opcodeRows,
    r.pattern &&& r'.mask = r'.pattern &&& r.mask → r = r' := by decide

/-- The pattern of a row is an instruction's word. -/
theorem opcodeRows_not_unlisted : ∀ r ∈ opcodeRows, ¬ Claims.Unlisted r.pattern := by unfold Claims.Unlisted; decide

/-- Each mask keeps the bits by which R104 tells the words of its row's family apart. -/
theorem opcodeRows_masks : ∀ r ∈ opcodeRows, famOf r.mask = 0xF ∧
    (r.pattern.toNat / 0x1000 = 0 → r.mask = 0xFFFF) ∧
    (r.pattern.toNat / 0x1000 ∈ [0x5, 0x8, 0x9] → nOf r.mask = 0xF) ∧
    (r.pattern.toNat / 0x1000 ∈ [0xE, 0xF] → kkOf r.mask = 0xFF) := by decide

section OpcodeMap

variable {op : Word} {i : Instr} {r r' : OpcodeRow}

theorem row_eq_of_covered (hr : r ∈ opcodeRows) (hr' : r' ∈ opcodeRows) (hc : op &&& r.mask = r.pattern)
    (hc' : op &&& r'.mask = r'.pattern) : r = r' :=
  opcodeRows_disagree r hr r' hr' (by rw [← hc, ← hc', BitVec.and_assoc, BitVec.and_assoc, BitVec.and_comm r.mask])

theorem Instr.row_covers (h : decodeWord op = some i) : op &&& i.row.mask = i.row.pattern := by
  rw [← encode_of_decodeWord h]; rfl

/-- Whether a word is listed in R104 shows in the bits that a row reads of it. -/
theorem unlisted_pattern (hr : r ∈ opcodeRows) (hc : op &&& r.mask = r.pattern) (h : Claims.Unlisted op) :
    Claims.Unlisted r.pattern := by
  obtain ⟨hfam, hwhole, hn, hkk⟩ := opcodeRows_masks r hr
  have hf : r.pattern.toNat / 0x1000 = op.toNat / 0x1000 := by
    rw [← famOf_toNat, ← famOf_toNat, ← hc, famOf_and, hfam]; exact congrArg _ BitVec.and_allOnes
  rw [hf] at hwhole hn hkk
  replace hn (h : op.toNat / 0x1000 ∈ [0x5, 0x8, 0x9]) : r.pattern.toNat % 16 = op.toNat % 16 := by
    rw [← nOf_toNat, ← nOf_toNat, ← hc, nOf_and, hn h]; exact congrArg _ BitVec.and_allOnes
  replace hkk (h : op.toNat / 0x1000 ∈ [0xE, 0xF]) : r.pattern.toNat % 256 = op.toNat % 256 := by
    rw [← kkOf_toNat, ← kkOf_toNat, ← hc, kkOf_and, hkk h]; exact congrArg _ BitVec.and_allOnes
  replace hwhole (h : op.toNat / 0x1000 = 0) : r.pattern = op := by
    rw [← hc, hwhole h]; exact BitVec.and_allOnes
  unfold Claims.Unlisted at h ⊢
  simp only [hf] at h ⊢
  rcases h with ⟨h0, h⟩ | ⟨h5, h⟩ | ⟨h8, h⟩ | ⟨h9, h⟩ | ⟨hE, h⟩ | ⟨hF, h⟩
  · rw [hwhole h0]; exact .inl ⟨h0, h⟩
  · rw [hn (by simp [h5])]; exact .inr (.inl ⟨h5, h⟩)
  · rw [hn (by simp [h8])]; exact .inr (.inr (.inl ⟨h8, h⟩))
  · rw [hn (by simp [h9])]; exact .inr (.inr (.inr (.inl ⟨h9, h⟩)))
  · rw [hkk (by simp [hE])]; exact .inr (.inr (.inr (.inr (.inl ⟨hE, h⟩))))
  · rw [hkk (by simp [hF])]; exact .inr (.inr (.inr (.inr (.inr ⟨hF, h⟩))))

theorem exists_decode_of_covered (hr : r ∈ opcodeRows) (hc : op &&& r.mask = r.pattern) :
    ∃ i, decodeWord op = some i :=
  Option.ne_none_iff_exists'.1 fun h =>
    opcodeRows_not_unlisted r hr (unlisted_pattern hr hc (decodeWord_eq_none_iff.1 h))

theorem covers_iff_decodes (hr : r ∈ opcodeRows) :
    op &&& r.mask = r.pattern ↔ ∃ i, decodeWord op = some i ∧ i.mnemonic = r.mnemonic := by
  constructor
  · intro hc
    obtain ⟨i, hi⟩ := exists_decode_of_covered hr hc
    exact ⟨i, hi, congrArg OpcodeRow.mnemonic (row_eq_of_covered i.row_mem hr (Instr.row_covers hi) hc)⟩
  · rintro ⟨i, hi, hname⟩
    obtain rfl : i.row = r := List.inj_on_of_nodup_map opcodeRows_mnemonics_nodup i.row_mem hr hname
    exact Instr.row_covers hi

end OpcodeMap

/-- Settles O5: a word under a row decodes, it stands in the row of what it decodes to, and it stands in one row only. -/
theorem opcodeMapIsTheDecoder : Obligations.OpcodeMapIsTheDecoder :=
  ⟨rfl, fun _ _ => covers_iff_decodes, fun _ i _ => ⟨i.row, i.row_mem, rfl⟩,
    (opcodeRows_mnemonics_nodup.of_map _).pairwise_of_forall_ne fun _ hr _ hr' hne _ ⟨hc, hc'⟩ =>
      hne (row_eq_of_covered hr hr' hc hc')⟩

/-- Settles O8: ten fixed words, evaluated. -/
theorem someWordsDecode : Obligations.SomeWordsDecode := by
  unfold Obligations.SomeWordsDecode Claims.Encodes
  decide

end Sys2Proof

namespace Sys2Proof.Machine

/-! ## The cycle, one equation per branch (R90 to R93, R103) -/

section Cycle

open Sys2Proof.Claims

variable {s : State} {op : Word} {i : Instr} {f : FaultRecord} {rnd : Byte}

theorem step_of_latched (hs : s.fault = some f) : step s = .fault (.latched f.cause) := by
  simp only [step, cycle, hs]

theorem step_of_unknown (hs : s.fault = none) (hop : fetch s = some op) (hd : decodeWord op = none) :
    step s = .next (advance s) := by
  simp only [step, cycle, hs, hop, hd]

theorem step_of_decodes (hs : s.fault = none) (hop : fetch s = some op) (hd : decodeWord op = some i) :
    step s = exec i (advance s) := by
  simp only [step, cycle, hs, hop, hd]

theorem stepCommand_of_latched (hs : s.fault = some f) : stepCommand rnd s = .next (s, .fault f.cause) := by
  rw [stepCommand, step_of_latched (s := s.setRndIn (some rnd)) hs]

theorem stepCommand_of_unknown (hs : s.fault = none) (hop : fetch s = some op) (hd : decodeWord op = none) :
    stepCommand rnd s = .next ((advance s).setRndIn none, .unknown op s.pc) := by
  rw [stepCommand, step_of_unknown (s := s.setRndIn (some rnd)) hs hop hd]
  simp only [stepResult, advance_fault, State.setRndIn_fault, hs, hop, hd]
  rfl

/-- The two bytes at `pc` are the word fetched (R65, R92). -/
theorem fetch_of_holds (hpc : s.pc.toNat ≤ 4094) (h : Holds s s.pc.toNat op) : fetch s = some op := by
  rw [fetch_in s hpc]
  refine congrArg some (BitVec.eq_of_toNat_eq ?_)
  rw [wordOfBytes_toNat, h]

end Cycle

/-- Settles O1: the two bytes at `pc` are the word that the step fetches. -/
theorem stepRunsTheDecodedInstruction : Obligations.StepRunsTheDecodedInstruction := by
  intro s i rest hs hpc hdec
  obtain ⟨hd, hrest⟩ := decode_eq_ok_iff.1 hdec
  have hadv : (s.pc + 2).toNat = s.pc.toNat + 2 := advance_pc_toNat hpc
  exact ⟨hrest.symm, i.wellFormed_eq_true, hadv, by omega, step_of_decodes hs (fetch_in s hpc) hd⟩

/-- Settles O3: the random byte of the STEP is set before the step and cleared after it, and the step passes it over. -/
theorem unknownWordOnlyAdvancesAndIsReported : Obligations.UnknownWordOnlyAdvancesAndIsReported := by
  intro s op rnd hs hpc hop hd
  have hfetch := fetch_of_holds hpc hop
  exact ⟨step_of_unknown hs hfetch hd, stepCommand_of_unknown hs hfetch hd⟩

/-! ## The set latch (R91, R247) -/

/-- Settles O37, by the first branch of the cycle. -/
theorem stepStopsOnASetLatch : Obligations.StepStopsOnASetLatch := fun _ _ => step_of_latched

/-- Settles O38, by each command's equation for a set latch. -/
theorem latchFreezesTheBlock : Obligations.LatchFreezesTheBlock := fun _ _ _ _ _ _ _ hs =>
  ⟨stepCommand_of_latched hs, tickCommand_of_latched hs, setKeyCommand_of_latched hs, loadCommand_of_latched hs, rfl⟩

end Sys2Proof.Machine
end

section
/-! PROOFS of the statements on control transfer (`spec/40_flow.md` R131 to R139): the words that R98 writes are the encodings,
what a skip, a call and a return leave, and that a return right after a call comes back. -/

namespace Sys2Proof.Machine

open Sys2Proof.Claims

/-! ## The words as R98 writes them -/

section Words

variable {f : BitVec 4} {x y : Reg} {nnn : Addr} {kk : Byte} {n : BitVec 4} {i : Instr}

theorem encodes_wordA (h : encode i = formatA f nnn) : Encodes (wordA f.toNat nnn) i := by
  rw [Encodes, wordA, formatA_ofNat, ← h, decodeWord_encode]

theorem encodes_wordXK (h : encode i = formatXK f x kk) : Encodes (wordXK f.toNat x kk.toNat) i := by
  rw [Encodes, wordXK, formatXK_ofNat, ← h, decodeWord_encode]

theorem encodes_wordXYN (h : encode i = formatXYN f x y n) : Encodes (wordXYN f.toNat x y n.toNat) i := by
  rw [Encodes, wordXYN, formatXYN_ofNat, ← h, decodeWord_encode]

/-- What a hard failure leaves, by the word that R248 names. -/
theorem raise_of_encodes {w : Word} (h : Encodes w i) (c : Cause) (s : State) :
    raise c i s = .next (latchedBy s c w) := by
  rw [raise_eq, encode_of_decodeWord h]
  rfl

/-- A step on an instruction's word in memory runs the instruction (R65, R93). -/
theorem step_of_holds {s : State} {w : Word} (hs : s.fault = none) (hpc : s.pc.toNat ≤ 4094)
    (hw : Holds s s.pc.toNat w) (h : Encodes w i) : step s = exec i (advance s) :=
  step_of_decodes hs (fetch_of_holds hpc hw) h

end Words

/-! ## Jumps (R132, R138) -/

/-- Settles O10: a jump is one write of `pc`. -/
theorem jumpSetsPc : Obligations.JumpSetsPc := fun nnn =>
  ⟨encodes_wordA (f := 0x1) rfl, fun s => ⟨_, rfl, addrWord_toNat nnn, (Unchanged.refl _ s).setPc rfl _⟩⟩

/-- The sum of an address field and a byte is not reduced (R138). -/
theorem addrWord_add_byteWord_toNat (nnn : Addr) (b : Byte) :
    (addrWord nnn + byteWord b).toNat = nnn.toNat + b.toNat := by
  rw [BitVec.toNat_add, addrWord_toNat, byteWord_toNat]
  omega

/-- Settles O13: 0xFFF + 0xFF is 0x10FE. -/
theorem jumpWithOffsetAddsV0 : Obligations.JumpWithOffsetAddsV0 := by
  refine fun nnn => ⟨encodes_wordA (f := 0xB) rfl, fun s => ?_⟩
  have hsum := addrWord_add_byteWord_toNat nnn (s.readV 0)
  refine ⟨_, rfl, hsum, ?_, (Unchanged.refl _ s).setPc rfl _⟩
  rw [State.setPc_pc, hsum]
  omega

/-! ## Skips (R134 to R137) -/

theorem skipsWhen_of_skipIf {i : Instr} {s : State} {b : Bool} {c : Prop} (h : exec i s = skipIf b s)
    (hb : b = true ↔ c) : SkipsWhen i s c := by
  refine ⟨_, h.trans (skipIf_eq b s), fun hc => ?_, fun hc => ?_, (Unchanged.refl _ s).setPc rfl _⟩
  · exact if_pos (hb.2 hc)
  · exact if_neg (mt hb.1 hc)

/-- Settles O12: bytes are equal exactly when they are equal as numbers. -/
theorem skipsCompareRegisters : Obligations.SkipsCompareRegisters := by
  have heq (a b : Byte) : decide (a = b) = true ↔ a.toNat = b.toNat := decide_eq_true_iff.trans BitVec.toNat_inj.symm
  have hne (a b : Byte) : decide (a ≠ b) = true ↔ a.toNat ≠ b.toNat := decide_eq_true_iff.trans BitVec.toNat_ne
  intro x y kk
  refine ⟨encodes_wordXK (f := 0x3) rfl, encodes_wordXK (f := 0x4) rfl, encodes_wordXYN (f := 0x5) (n := 0) rfl,
    encodes_wordXYN (f := 0x9) (n := 0) rfl, fun s => ⟨?_, ?_, ?_, ?_⟩⟩
  · exact skipsWhen_of_skipIf rfl (heq _ _)
  · exact skipsWhen_of_skipIf rfl (hne _ _)
  · exact skipsWhen_of_skipIf rfl (heq _ _)
  · exact skipsWhen_of_skipIf rfl (hne _ _)

/-! ## Call and return (R131, R133, R139), by the stack slot `k` that they use -/

/-- What a call leaves that pushes to slot `k` (R133). -/
def State.called (s : State) (nnn : Addr) (k : Fin 16) : State :=
  ((s.setStack k s.pc).setSp k.succ).setPc (addrWord nnn)

/-- What a return leaves that pops slot `k` (R131). -/
def State.returned (s : State) (k : Fin 16) : State := (s.setSp k.castSucc).setPc s.stack[k]

section CallAndReturn

variable {s t : State} {nnn : Addr} {k : Fin 16} {m : MayChange}

theorem exec_call_of_sp_eq (h : s.sp.val = k.val) : exec (.call nnn) s = .next (s.called nnn k) := by
  have hlt : s.sp.val < 16 := by omega
  obtain rfl : k = ⟨s.sp.val, hlt⟩ := Fin.ext h.symm
  exact exec_call_of_lt hlt

theorem exec_ret_of_sp_eq (h : s.sp.val = k.val + 1) : exec .ret s = .next (s.returned k) := by
  have hlt : s.sp.val - 1 < 16 := by omega
  have hpos : 0 < s.sp.val := by omega
  obtain rfl : k = ⟨s.sp.val - 1, hlt⟩ := Fin.ext (Nat.eq_sub_of_add_eq h.symm)
  exact exec_ret_of_pos hpos

theorem State.called_stack_get : (s.called nnn k).stack[k] = s.pc :=
  (State.setStack_get s k s.pc k).trans (if_pos rfl)

namespace Unchanged

theorem called (h : Unchanged m s t) (hsp : m.sp = true) (hpc : m.pc = true) (hk : m.stackSlot = some k.val) :
    Unchanged m s (t.called nnn k) :=
  ((h.setStack hk _).setSp hsp _).setPc hpc _

theorem returned (h : Unchanged m s t) (hsp : m.sp = true) (hpc : m.pc = true) : Unchanged m s (t.returned k) :=
  (h.setSp hsp _).setPc hpc _

theorem advance (h : Unchanged m s t) (hpc : m.pc = true) : Unchanged m s (advance t) := h.setPc hpc _

/-- `sp` leaves the list where it is back at its value. -/
theorem sp_false (h : Unchanged m s t) (hsp : t.sp = s.sp) : Unchanged { m with sp := false } s t := by
  obtain ⟨hv, hi, hpc, -, rest⟩ := h
  exact ⟨hv, hi, hpc, fun _ => hsp, rest⟩

end Unchanged

end CallAndReturn

theorem encodes_call (nnn : Addr) : Encodes (wordA 0x2 nnn) (.call nnn) := encodes_wordA (f := 0x2) rfl

theorem encodes_ret : Encodes 0x00EE .ret := decodeWord_encode .ret

/-- Settles O9, by whether the stack has a live entry. -/
theorem returnPopsTheStack : Obligations.ReturnPopsTheStack := by
  refine ⟨encodes_ret, fun s => ⟨fun hsp => ?_, fun k hsp => ?_⟩⟩
  · rw [exec_ret_of_empty (by simp [hsp]), raise_of_encodes encodes_ret]
  · exact ⟨s.returned k, exec_ret_of_sp_eq hsp, rfl, rfl, (Unchanged.refl _ s).returned rfl rfl⟩

/-- Settles O11, by whether the stack has room. -/
theorem callPushesAndJumps : Obligations.CallPushesAndJumps := by
  refine fun nnn => ⟨encodes_call nnn, fun s => ⟨fun hsp => ?_, fun k hsp => ?_⟩⟩
  · rw [exec_call_of_full (by simp [hsp]), raise_of_encodes (encodes_call nnn)]
  · exact ⟨s.called nnn k, exec_call_of_sp_eq hsp, State.called_stack_get, rfl, addrWord_toNat nnn,
      (Unchanged.refl _ s).called rfl rfl rfl⟩

/-- Settles O14: the call leaves memory as it is, so the second step fetches the return, which takes the entry just pushed. -/
theorem callThenReturnComesBack : Obligations.CallThenReturnComesBack := by
  intro s nnn hs hpc hsp hnnn hcall hret
  obtain ⟨k, hk⟩ : ∃ k : Fin 16, s.sp.val = k.val := ⟨⟨s.sp.val, hsp⟩, rfl⟩
  have hstep := (step_of_holds hs hpc hcall (encodes_call nnn)).trans (exec_call_of_sp_eq hk)
  have htarget : ((advance s).called nnn k).pc.toNat = nnn.toNat := addrWord_toNat nnn
  have hstep' := (step_of_holds (s := (advance s).called nnn k) hs (by omega) (by rw [htarget]; exact hret)
    encodes_ret).trans (exec_ret_of_sp_eq (k := k) rfl)
  have hpcback : ((advance s).called nnn k).stack[k] = s.pc + 2 := State.called_stack_get
  have hspback : k.castSucc = s.sp := Fin.ext hk.symm
  have hframe := (Unchanged.refl { pc := true, sp := true, stackSlot := some s.sp.val } s).advance rfl
    |>.called (nnn := nnn) rfl rfl (congrArg some hk) |>.advance rfl |>.returned (k := k) rfl rfl
  exact ⟨_, _, hstep, hstep', hpcback, hspback, hframe.sp_false hspback⟩

end Sys2Proof.Machine
end

section
/-! PROOFS of the statements on the registers and the ALU (`spec/41_alu.md` R150 to R165): the results and flags as numbers,
what an instruction leaves that writes one register, or one register and then VF, and who reads the random byte. -/

namespace Sys2Proof.Machine

open Sys2Proof.Claims

/-! ## Results and flags as numbers (R156 to R160, R163) -/

section Values

variable (a b : Byte)

theorem flag_toNat (c : Prop) [Decidable c] : (flag (decide c)).toNat = if c then 1 else 0 := by
  by_cases h : c <;> simp [flag, h]

theorem carryFlag_toNat : (carryFlag a b).toNat = if 256 ≤ a.toNat + b.toNat then 1 else 0 := flag_toNat _

theorem noBorrowFlag_toNat : (noBorrowFlag a b).toNat = if b.toNat ≤ a.toNat then 1 else 0 := flag_toNat _

/-- 256 is added exactly when the difference is negative. -/
theorem subResult_toNat_ite :
    (subResult a b).toNat = if b.toNat ≤ a.toNat then a.toNat - b.toNat else a.toNat + 256 - b.toNat := by
  rw [subResult_toNat]
  split <;> omega

theorem shiftRightResult_toNat : (shiftRightResult b).toNat = b.toNat / 2 := by
  rw [shiftRightResult, BitVec.toNat_ushiftRight, Nat.shiftRight_one]

theorem shiftLeftResult_toNat : (shiftLeftResult b).toNat = b.toNat * 2 % 256 := by
  rw [shiftLeftResult, BitVec.toNat_shiftLeft, Nat.shiftLeft_eq, pow_one]

/-- The flag of bit `i` is that bit as a number. -/
theorem flag_getLsbD_toNat (i : Nat) : (flag (b.getLsbD i)).toNat = b.toNat / 2 ^ i % 2 := by
  rw [BitVec.getLsbD, Nat.testBit_eq_decide_div_mod_eq, flag_toNat]
  split <;> omega

theorem lowBitFlag_toNat : (lowBitFlag b).toNat = b.toNat % 2 := by
  rw [lowBitFlag, flag_getLsbD_toNat, pow_zero, Nat.div_one]

theorem highBitFlag_toNat : (highBitFlag b).toNat = b.toNat / 128 := by
  rw [highBitFlag, flag_getLsbD_toNat]
  omega

end Values

/-! ## One register written (R150 to R155) -/

theorem setsReg_of_setV {i : Instr} {s : State} {x : Reg} {b : Byte} {n : Nat} (h : exec i s = .next (s.setV x b))
    (hb : b.toNat = n) : SetsReg i s x n := by
  refine ⟨_, h, ?_, (Unchanged.refl _ s).setV (List.mem_singleton_self x) b⟩
  rw [State.setV_get, if_pos rfl, hb]

/-- Settles O15: `set-immediate` writes `kk`, `add-immediate` the sum. -/
theorem immediatesSetAndAddWithoutFlag : Obligations.ImmediatesSetAndAddWithoutFlag := fun _ _ =>
  ⟨encodes_wordXK (f := 0x6) rfl, encodes_wordXK (f := 0x7) rfl, fun _ =>
    ⟨setsReg_of_setV rfl rfl, setsReg_of_setV rfl (addResult_toNat _ _)⟩⟩

/-- Settles O16: the bits of a byte are those of its number. -/
theorem moveOrAndXorTouchNoFlag : Obligations.MoveOrAndXorTouchNoFlag := by
  refine fun x y => ⟨encodes_wordXYN (f := 0x8) (n := 0x0) rfl, encodes_wordXYN (f := 0x8) (n := 0x1) rfl,
    encodes_wordXYN (f := 0x8) (n := 0x2) rfl, encodes_wordXYN (f := 0x8) (n := 0x3) rfl, fun s => ⟨?_, ?_, ?_, ?_⟩⟩
  · exact setsReg_of_setV rfl rfl
  · exact setsReg_of_setV rfl (BitVec.toNat_or _ _)
  · exact setsReg_of_setV rfl (BitVec.toNat_and _ _)
  · exact setsReg_of_setV rfl (BitVec.toNat_xor _ _)

/-! ## One register written, then VF (R156 to R160, R165) -/

theorem setsRegAndFlag_of_setResultAndFlag {i : Instr} {s : State} {x : Reg} {b f : Byte} {n m : Nat}
    (h : exec i s = .next (s.setResultAndFlag x b f)) (hb : b.toNat = n) (hf : f.toNat = m) :
    SetsRegAndFlag i s x n m := by
  refine ⟨_, h, fun hx => ?_, ?_, (Unchanged.refl _ s).setResultAndFlag (by simp) (by simp) b f⟩
  · rw [State.setResultAndFlag_get, if_neg hx, if_pos rfl, hb]
  · rw [State.setResultAndFlag_get, if_pos rfl, hf]

/-- Settles O17, by the sum and the carry as numbers. -/
theorem addRegsCarries : Obligations.AddRegsCarries := fun _ _ =>
  ⟨encodes_wordXYN (f := 0x8) (n := 0x4) rfl, fun _ =>
    setsRegAndFlag_of_setResultAndFlag rfl (addResult_toNat _ _) (carryFlag_toNat _ _)⟩

/-- Settles O18, by the difference and the not-borrow as numbers; the reverse subtraction swaps the operands. -/
theorem subtractionsFlagNoBorrow : Obligations.SubtractionsFlagNoBorrow := fun _ _ =>
  ⟨encodes_wordXYN (f := 0x8) (n := 0x5) rfl, encodes_wordXYN (f := 0x8) (n := 0x7) rfl, fun _ =>
    ⟨setsRegAndFlag_of_setResultAndFlag rfl (subResult_toNat_ite _ _) (noBorrowFlag_toNat _ _),
      setsRegAndFlag_of_setResultAndFlag rfl (subResult_toNat_ite _ _) (noBorrowFlag_toNat _ _)⟩⟩

/-- Settles O19, by the shifted byte and the lost bit as numbers. -/
theorem shiftsReadVyAndFlagTheLostBit : Obligations.ShiftsReadVyAndFlagTheLostBit := fun _ _ =>
  ⟨encodes_wordXYN (f := 0x8) (n := 0x6) rfl, encodes_wordXYN (f := 0x8) (n := 0xE) rfl, fun _ =>
    ⟨setsRegAndFlag_of_setResultAndFlag rfl (shiftRightResult_toNat _) (lowBitFlag_toNat _),
      setsRegAndFlag_of_setResultAndFlag rfl (shiftLeftResult_toNat _) (highBitFlag_toNat _)⟩⟩

/-! ## The random byte (R162) -/

theorem encodes_randomMasked (x : Reg) (kk : Byte) : Encodes (wordXK 0xC x kk.toNat) (.randomMasked x kk) :=
  encodes_wordXK (f := 0xC) rfl

theorem exec_randomMasked (x : Reg) (kk : Byte) (s : State) :
    exec (.randomMasked x kk) s = .next (s.setV x (s.rnd &&& kk)).countDraw := rfl

/-- What `random-masked` leaves in VX. -/
theorem randomMasked_get (s : State) (x : Reg) (b : Byte) : (s.setV x b).countDraw.v[x] = b :=
  (State.setV_get s x b x).trans (if_pos rfl)

/-- A masked byte has no bit outside the mask. -/
theorem and_and_not_eq_zero (r kk : Byte) : r &&& kk &&& ~~~kk = 0 := by
  rw [BitVec.and_assoc, BitVec.and_not_self]
  exact BitVec.and_zero

/-- An instruction other than `random-masked` does the same whatever the random byte, and leaves the byte in place. -/
theorem exec_setRndIn (i : Instr) (hi : ∀ x kk, i ≠ .randomMasked x kk) (s : State) :
    ∃ t, exec i s = .next t ∧ ∀ r, exec i (s.setRndIn r) = .next (t.setRndIn r) := by
  cases i with
  | randomMasked x kk => exact absurd rfl (hi x kk)
  | ret =>
    by_cases h : 0 < s.sp.val
    · exact ⟨_, exec_ret_of_pos h, fun r => exec_ret_of_pos (s := s.setRndIn r) h⟩
    · exact ⟨_, exec_ret_of_empty h, fun r => exec_ret_of_empty (s := s.setRndIn r) h⟩
  | call nnn =>
    by_cases h : s.sp.val < 16
    · exact ⟨_, exec_call_of_lt h, fun r => exec_call_of_lt (s := s.setRndIn r) h⟩
    · exact ⟨_, exec_call_of_full h, fun r => exec_call_of_full (s := s.setRndIn r) h⟩
  | skipEqImm | skipNeqImm | skipEqReg | skipNeqReg => exact ⟨_, skipIf_eq _ s, fun r => skipIf_eq _ (s.setRndIn r)⟩
  | skipKeyDown x =>
    by_cases h : (s.readV x).toNat < 16
    · exact ⟨_, (exec_skipKeyDown_of_lt h).trans (skipIf_eq _ s), fun r =>
        (exec_skipKeyDown_of_lt (s := s.setRndIn r) h).trans (skipIf_eq _ (s.setRndIn r))⟩
    · exact ⟨_, exec_skipKeyDown_of_ge h, fun r => exec_skipKeyDown_of_ge (s := s.setRndIn r) h⟩
  | skipKeyUp x =>
    by_cases h : (s.readV x).toNat < 16
    · exact ⟨_, (exec_skipKeyUp_of_lt h).trans (skipIf_eq _ s), fun r =>
        (exec_skipKeyUp_of_lt (s := s.setRndIn r) h).trans (skipIf_eq _ (s.setRndIn r))⟩
    · exact ⟨_, exec_skipKeyUp_of_ge h, fun r => exec_skipKeyUp_of_ge (s := s.setRndIn r) h⟩
  | waitKey x =>
    cases h : lowestKey s.key with
    | none => exact ⟨_, exec_waitKey_of_none h, fun r => exec_waitKey_of_none (s := s.setRndIn r) h⟩
    | some k => exact ⟨_, exec_waitKey_of_some h, fun r => exec_waitKey_of_some (s := s.setRndIn r) h⟩
  | spriteAddress x =>
    by_cases h : (s.readV x).toNat ≤ 15
    · exact ⟨_, exec_spriteAddress_of_le h, fun r => exec_spriteAddress_of_le (s := s.setRndIn r) h⟩
    · exact ⟨_, exec_spriteAddress_of_gt h, fun r => exec_spriteAddress_of_gt (s := s.setRndIn r) h⟩
  | drawSprite x y n =>
    by_cases h : InBounds s.index n.val
    · exact ⟨_, exec_drawSprite_in h, fun r => exec_drawSprite_in (s := s.setRndIn r) h⟩
    · exact ⟨_, exec_drawSprite_out h, fun r => exec_drawSprite_out (s := s.setRndIn r) h⟩
  | storeBcd x =>
    by_cases h : InBounds s.index 3
    · exact ⟨_, exec_storeBcd_in h, fun r => exec_storeBcd_in (s := s.setRndIn r) h⟩
    · exact ⟨_, exec_storeBcd_out h, fun r => exec_storeBcd_out (s := s.setRndIn r) h⟩
  | storeRegs x =>
    by_cases h : InBounds s.index (x.val + 1)
    · exact ⟨_, exec_storeRegs_in h, fun r => exec_storeRegs_in (s := s.setRndIn r) h⟩
    · exact ⟨_, exec_storeRegs_out h, fun r => exec_storeRegs_out (s := s.setRndIn r) h⟩
  | loadRegs x =>
    by_cases h : InBounds s.index (x.val + 1)
    · exact ⟨_, exec_loadRegs_in h, fun r => exec_loadRegs_in (s := s.setRndIn r) h⟩
    · exact ⟨_, exec_loadRegs_out h, fun r => exec_loadRegs_out (s := s.setRndIn r) h⟩
  | _ => exact ⟨_, rfl, fun _ => rfl⟩

section RandomByte

variable {s t : State} {op : Word} {i : Instr} {rnd : Byte}

theorem step_of_fetch_none (hs : s.fault = none) (hop : fetch s = none) : step s = .next (fetchFailed s) := by
  simp only [step, cycle, hs, hop]

theorem stepCommand_of_next (h : step (s.setRndIn (some rnd)) = .next t) :
    stepCommand rnd s = .next (t.setRndIn none, stepResult s t) := by
  rw [stepCommand, h]

theorem stepResult_of_decodes (ht : t.fault = none) (hop : fetch s = some op) (hd : decodeWord op = some i) :
    stepResult s t = .stepped (touchesFb i) := by
  simp only [stepResult, ht, hop, hd]

/-- The word fetched stands at `pc` (R65, R92). -/
theorem holds_of_fetch (h : fetch s = some op) : Holds s s.pc.toNat op := by
  rw [fetch_in s (pc_le_of_fetch h)] at h
  cases h
  exact wordOfBytes_toNat _ _

/-- No two words encode one instruction (R100). -/
theorem eq_of_encodes {w : Word} (h : Encodes op i) (h' : Encodes w i) : op = w :=
  (encode_of_decodeWord h).symm.trans (encode_of_decodeWord h')

/-- A step that runs no `random-masked` does the same whatever the random byte, and leaves the byte in place. -/
theorem step_setRndIn (hs : s.fault = none)
    (hrnd : ∀ (x : Reg) (kk : Byte), ¬ Holds s s.pc.toNat (wordXK 0xC x kk.toNat)) :
    ∃ t : State, ∀ r, step (s.setRndIn r) = .next (t.setRndIn r) := by
  rcases step_cases s with ⟨f, hf, -⟩ | ⟨-, hop, -⟩ | ⟨op, -, hop, hd, -⟩ | ⟨op, i, -, hop, hd, -⟩
  · cases hs.symm.trans hf
  · exact ⟨fetchFailed s, fun r => step_of_fetch_none (s := s.setRndIn r) hs hop⟩
  · exact ⟨advance s, fun r => step_of_unknown (s := s.setRndIn r) hs hop hd⟩
  · have hi : ∀ x kk, i ≠ .randomMasked x kk := by
      rintro x kk rfl
      apply hrnd x kk
      rw [← eq_of_encodes hd (encodes_randomMasked x kk)]
      exact holds_of_fetch hop
    obtain ⟨t, -, ht⟩ := exec_setRndIn i hi (advance s)
    exact ⟨t, fun r => (step_of_decodes (s := s.setRndIn r) hs hop hd).trans (ht r)⟩

/-- STEP on a `Cxkk` writes its own random byte, masked, and its result is `Ok` with no change notice. -/
theorem stepCommand_of_randomMasked {x : Reg} {kk : Byte} (hs : s.fault = none) (hpc : s.pc.toNat ≤ 4094)
    (hw : Holds s s.pc.toNat (wordXK 0xC x kk.toNat)) :
    stepCommand rnd s = .next (((advance s).setV x (rnd &&& kk)).countDraw.setRndIn none, .stepped false) := by
  have hstep := (step_of_holds (s := s.setRndIn (some rnd)) hs hpc hw (encodes_randomMasked x kk)).trans
    (exec_randomMasked x kk _)
  rw [stepCommand_of_next hstep, stepResult_of_decodes ?_ (fetch_of_holds hpc hw) (encodes_randomMasked x kk)]
  · rfl
  · exact hs

theorem stepCommand_ignores_rnd (hrnd : ∀ (x : Reg) (kk : Byte), ¬ Holds s s.pc.toNat (wordXK 0xC x kk.toNat))
    (r r' : Byte) : stepCommand r s = stepCommand r' s := by
  cases hs : s.fault with
  | some f => rw [stepCommand_of_latched hs, stepCommand_of_latched hs]
  | none =>
    obtain ⟨t, ht⟩ := step_setRndIn hs hrnd
    rw [stepCommand_of_next (ht (some r)), stepCommand_of_next (ht (some r'))]
    rfl

end RandomByte

/-- Settles O20: the mask, then the byte of STEP, then that a step on any other word passes the byte over. -/
theorem randomMaskedUsesOnlyTheMaskedByte : Obligations.RandomMaskedUsesOnlyTheMaskedByte := by
  refine ⟨fun x kk => ⟨encodes_randomMasked x kk, fun s => ?_⟩, fun x kk rnd s hs hpc hw => ?_, fun s r r' hrnd => ?_⟩
  · have hx := randomMasked_get s x (s.rnd &&& kk)
    refine ⟨_, exec_randomMasked x kk s, ⟨s.rnd, hx⟩, ?_,
      ((Unchanged.refl _ s).setV (List.mem_singleton_self x) _).countDraw rfl⟩
    rw [hx, and_and_not_eq_zero]
  · exact ⟨_, stepCommand_of_randomMasked hs hpc hw, randomMasked_get (advance s) x (rnd &&& kk)⟩
  · exact stepCommand_ignores_rnd hrnd r r'

end Sys2Proof.Machine
end

section
/-! PROOFS of the statements on the index register and memory (`spec/42_index_memory.md` R180 to R185,
`spec/70_reset_and_hazards.md` R301): what `I` holds after each write of it, the digits and registers that a store leaves in
memory, the registers that a load leaves, and that a load undoes a store. -/

namespace Sys2Proof.Machine

open Sys2Proof.Claims

/-- The frame of an instruction that did not fail: its row of R37, without the latch. -/
theorem unchanged_of_exec {i : Instr} {s t : State} (h : exec i s = .next t) (hf : t.fault = s.fault) :
    Unchanged { mayChange i s with fault := false } s t := by
  obtain ⟨u, hu, hframe⟩ := exec_unchanged i s
  cases hu.symm.trans h
  obtain ⟨hv, hi, hpc, hsp, hst, hdt, hsound, hfb, -, rest⟩ := hframe
  exact ⟨hv, hi, hpc, hsp, hst, hdt, hsound, hfb, fun _ => hf, rest⟩

/-! ## The index register (R180 to R182) -/

/-- Settles O21: `I` has 16 bits, so the sum is taken modulo 65536. -/
theorem indexIsSetAndAddedTo : Obligations.IndexIsSetAndAddedTo := by
  refine fun nnn x => ⟨encodes_wordA (f := 0xA) rfl, encodes_wordXK (f := 0xF) (kk := 0x1E) rfl, fun s => ⟨?_, ?_⟩⟩
  · exact ⟨_, rfl, addrWord_toNat nnn, unchanged_of_exec (i := .setIndex nnn) rfl rfl⟩
  · have hsum : (s.index + byteWord (s.readV x)).toNat = (s.index.toNat + (s.readV x).toNat) % 65536 := by
      rw [BitVec.toNat_add, byteWord_toNat]
    exact ⟨_, rfl, hsum, unchanged_of_exec (i := .addIndex x) rfl rfl⟩

/-- Settles O22: 5 VX is at most 75, so nothing is reduced. -/
theorem spriteAddressOfADigit : Obligations.SpriteAddressOfADigit := by
  refine fun x => ⟨encodes_wordXK (f := 0xF) (kk := 0x29) rfl, fun s hx => ?_⟩
  have hfive : (BitVec.ofNat 16 (s.v[x].toNat * 5)).toNat = s.v[x].toNat * 5 := by
    rw [BitVec.toNat_ofNat, Nat.mod_eq_of_lt (by omega)]
  exact ⟨_, exec_spriteAddress_of_le hx, hfive, hfive.trans_le (by omega), (Unchanged.refl _ s).setIndex rfl _⟩

/-- Settles O23: one free value is drawn, for `I`. -/
theorem spriteAddressAboveFifteenLeavesOnlyIndexOpen : Obligations.SpriteAddressAboveFifteenLeavesOnlyIndexOpen := by
  intro x s hx
  have h := exec_spriteAddress_of_gt (Nat.not_le.2 hx)
  exact ⟨_, h, rfl, unchanged_of_exec h rfl⟩

/-! ## Decimal digits (R183) -/

/-- A byte of a stored list is where the store put it. -/
theorem Memory.read_writeBytes_of_getElem? (m : Memory) (a : Nat) {bs : List Byte} {k : Nat} {b : Byte}
    (h : bs[k]? = some b) : Memory.read (m.writeBytes a bs) (a + k) = b := by
  rw [Memory.read_writeBytes, if_pos (Nat.le_add_right ..), Nat.add_sub_cancel_left, h, Option.getD_some]

/-- Digit `k` of VX where `store-bcd` puts it, as a number that a byte holds. -/
theorem read_storedBcd_toNat (s : State) (b : Byte) {k n : Nat} (h : (bcdDigits b)[k]? = some (BitVec.ofNat 8 n))
    (hn : n < 256) : (Memory.read (s.mem.writeBytes s.index.toNat (bcdDigits b)) (s.index.toNat + k)).toNat = n := by
  rw [Memory.read_writeBytes_of_getElem? _ _ h, BitVec.toNat_ofNat, Nat.mod_eq_of_lt hn]

theorem encodes_storeBcd (x : Reg) : Encodes (wordXK 0xF x 0x33) (.storeBcd x) :=
  encodes_wordXK (f := 0xF) (kk := 0x33) rfl

/-- Settles O24, by whether the three bytes are in bounds; each digit fits a byte. -/
theorem storeBcdWritesThreeDigits : Obligations.StoreBcdWritesThreeDigits := by
  refine fun x => ⟨encodes_storeBcd x, fun s => ⟨fun hout => ?_, fun hin => ?_⟩⟩
  · rw [exec_storeBcd_out (by omega), raise_of_encodes (encodes_storeBcd x)]
  · have h := exec_storeBcd_in (s := s) (x := x) (.inr (by omega))
    exact ⟨_, h, read_storedBcd_toNat s (s.readV x) (k := 0) rfl (by omega),
      read_storedBcd_toNat s (s.readV x) (k := 1) rfl (by omega),
      read_storedBcd_toNat s (s.readV x) (k := 2) rfl (by omega), unchanged_of_exec h rfl⟩

/-! ## Registers stored and loaded (R184, R185) -/

/-- What `store-registers` leaves where it does not fail. -/
def State.regsStored (s : State) (x : Reg) : State :=
  (s.setMem (s.mem.writeBytes s.index.toNat (s.firstRegs x))).bumpIndex x

/-- What `load-registers` leaves where it does not fail. -/
def State.regsLoaded (s : State) (x : Reg) : State :=
  (s.loadFirst (s.mem.readBytes s.index.toNat (x.val + 1))).bumpIndex x

section Blocks

variable {s : State} {x r : Reg}

theorem exec_storeRegs_of_le (h : s.index.toNat + x.val ≤ 4095) : exec (.storeRegs x) s = .next (s.regsStored x) :=
  exec_storeRegs_in (.inr h)

theorem exec_loadRegs_of_le (h : s.index.toNat + x.val ≤ 4095) : exec (.loadRegs x) s = .next (s.regsLoaded x) :=
  exec_loadRegs_in (.inr h)

/-- The advanced `I` is at most 4096, so it is not reduced. -/
theorem State.bumpIndex_toNat (h : s.index.toNat + x.val ≤ 4095) :
    (s.bumpIndex x).index.toNat = s.index.toNat + x.val + 1 := by
  rw [State.bumpIndex_index, BitVec.toNat_add, BitVec.toNat_ofNat]
  omega

theorem State.regsLoaded_get_of_le (s : State) (h : r ≤ x) :
    (s.regsLoaded x).v[r] = s.mem.read (s.index.toNat + r.val) := by
  have hbyte := Memory.readBytes_get s.mem s.index.toNat (x.val + 1) r.val (Nat.lt_succ_of_le h)
  exact (State.loadFirst_get s _ r).trans (by rw [hbyte, Option.getD_some])

theorem State.regsLoaded_get_of_lt (s : State) (h : x < r) : (s.regsLoaded x).v[r] = s.v[r] := by
  have hlen : (s.mem.readBytes s.index.toNat (x.val + 1)).length ≤ r.val := by
    rw [Memory.readBytes_length]; exact h
  exact (State.loadFirst_get s _ r).trans (by rw [List.getElem?_eq_none hlen, Option.getD_none])

theorem encodes_storeRegs (x : Reg) : Encodes (wordXK 0xF x 0x55) (.storeRegs x) :=
  encodes_wordXK (f := 0xF) (kk := 0x55) rfl

theorem encodes_loadRegs (x : Reg) : Encodes (wordXK 0xF x 0x65) (.loadRegs x) :=
  encodes_wordXK (f := 0xF) (kk := 0x65) rfl

end Blocks

/-- Settles O25, by whether the block is in bounds. -/
theorem storeRegistersWritesV0ToVx : Obligations.StoreRegistersWritesV0ToVx := by
  refine fun x => ⟨encodes_storeRegs x, fun s => ⟨fun hout => ?_, fun hin => ?_⟩⟩
  · rw [exec_storeRegs_out (by omega), raise_of_encodes (encodes_storeRegs x)]
  · have h := exec_storeRegs_of_le hin
    exact ⟨_, h, fun r hr => read_storedRegs s hr, State.bumpIndex_toNat hin, unchanged_of_exec h rfl⟩

/-- Settles O26, by whether the block is in bounds. -/
theorem loadRegistersReadsV0ToVx : Obligations.LoadRegistersReadsV0ToVx := by
  refine fun x => ⟨encodes_loadRegs x, fun s => ⟨fun hout => ?_, fun hin => ?_⟩⟩
  · rw [exec_loadRegs_out (by omega), raise_of_encodes (encodes_loadRegs x)]
  · have h := exec_loadRegs_of_le hin
    exact ⟨_, h, fun r hr => State.regsLoaded_get_of_le s hr, State.bumpIndex_toNat hin, unchanged_of_exec h rfl⟩

/-- Settles O27: with `I` set back, the load reads the bytes that the store wrote (R301) and adds to `I` what the store did. -/
theorem storeThenLoadRestoresRegisters : Obligations.StoreThenLoadRestoresRegisters := by
  intro x s w hin
  have hload := exec_loadRegs_of_le (s := ((s.regsStored x).setIndex s.index).setRegs w) (x := x) hin
  refine ⟨_, _, exec_storeRegs_of_le hin, hload, fun r hr => ?_, fun r hr => ?_, rfl⟩
  · exact (State.regsLoaded_get_of_le _ hr).trans (read_storedRegs s hr)
  · exact State.regsLoaded_get_of_lt _ hr

end Sys2Proof.Machine
end

section
/-! PROOFS of the statements on the display (`spec/43_display.md` R200 to R204): which pixels a row and a sprite toggle, what
`draw-sprite` leaves, that a second draw undoes the first, and which words the change notice marks. -/

namespace Sys2Proof.Machine

open Sys2Proof.Claims

/-! ## Clear (R200) -/

theorem encodes_clearScreen : Encodes 0x00E0 .clearScreen := decodeWord_encode .clearScreen

/-- Settles O29: the screen that is written has every pixel off. -/
theorem clearScreenTurnsEveryPixelOff : Obligations.ClearScreenTurnsEveryPixelOff :=
  ⟨encodes_clearScreen, fun s => ⟨_, rfl, blankScreen_pixel, (Unchanged.refl _ s).setFb rfl _⟩⟩

/-! ## Drawing a set of pixels (R201, R202) -/

/-- `q` is `p` with exactly the pixels of `lit` toggled, and a hit more if one of those was on. -/
structure Draws (lit : Fin 64 → Fin 32 → Prop) (p q : Canvas) : Prop where
  toggles : ∀ i j, lit i j → q.fb[j][i] = !p.fb[j][i]
  keeps : ∀ i j, ¬ lit i j → q.fb[j][i] = p.fb[j][i]
  hit_iff : q.hit = true ↔ p.hit = true ∨ ∃ i j, lit i j ∧ p.fb[j][i] = true

namespace Draws

variable {lit lit' : Fin 64 → Fin 32 → Prop} {p q r : Canvas}

theorem nothing (h : ∀ i j, ¬ lit i j) : Draws lit p p where
  toggles i j hl := absurd hl (h i j)
  keeps _ _ _ := rfl
  hit_iff := ⟨.inl, fun hp => hp.resolve_right fun ⟨i, j, hl, _⟩ => h i j hl⟩

theorem congr (h : Draws lit p q) (heq : ∀ i j, lit i j ↔ lit' i j) : Draws lit' p q := by
  obtain rfl : lit = lit' := funext₂ fun i j => propext (heq i j)
  exact h

/-- Pixels drawn in two parts that share none: each is visited once, so the order does not matter (R202 (i)). -/
theorem trans (h : Draws lit p q) (h' : Draws lit' q r) (hdisj : ∀ i j, lit i j → ¬ lit' i j) :
    Draws (fun i j => lit i j ∨ lit' i j) p r where
  toggles i j := by
    rintro (hl | hl')
    · rw [h'.keeps i j (hdisj i j hl), h.toggles i j hl]
    · rw [h'.toggles i j hl', h.keeps i j fun hl => hdisj i j hl hl']
  keeps i j hn := by
    obtain ⟨hl, hl'⟩ := not_or.1 hn
    rw [h'.keeps i j hl', h.keeps i j hl]
  hit_iff := by
    -- the second part finds its pixels as they were before the first
    have hq : (∃ i j, lit' i j ∧ q.fb[j][i] = true) ↔ ∃ i j, lit' i j ∧ p.fb[j][i] = true :=
      exists₂_congr fun i j => and_congr_right fun hl' => by rw [h.keeps i j fun hl => hdisj i j hl hl']
    simp only [h'.hit_iff, h.hit_iff, hq, or_and_right, exists_or, or_assoc]

/-- A loop whose turns share no pixel. -/
theorem foldl {α : Type} {f : Canvas → α → Canvas} {lit : α → Fin 64 → Fin 32 → Prop}
    (hf : ∀ p a, Draws (lit a) p (f p a)) {as : List α} (hdisj : as.Pairwise fun a b => ∀ i j, lit a i j → ¬ lit b i j)
    (p : Canvas) : Draws (fun i j => ∃ a ∈ as, lit a i j) p (as.foldl f p) := by
  induction as generalizing p with
  | nil => exact nothing (by simp)
  | cons a as ih =>
    obtain ⟨ha, has⟩ := List.pairwise_cons.1 hdisj
    have hrest := (hf p a).trans (ih has (f p a)) fun i j hl ⟨b, hb, hl'⟩ => ha b hb i j hl hl'
    exact hrest.congr fun i j => by simp

end Draws

/-- Bit `c` of a sprite byte is 1 and lands on column `i`, row `j` (R202 (b)). -/
def BitLit (x0 y : Nat) (row : Byte) (c : Nat) (i : Fin 64) (j : Fin 32) : Prop :=
  spriteBit row c = true ∧ i.val = x0 + c ∧ j.val = y

/-- One of the eight bits of a sprite byte lands there. -/
def RowLit (x0 y : Nat) (row : Byte) (i : Fin 64) (j : Fin 32) : Prop := ∃ c ∈ List.range 8, BitLit x0 y row c i j

/-- A bit of one of the sprite's bytes lands there, byte `r` on row `y + r` (R202 (a)). -/
def RowsLit (x0 y : Nat) (rows : List Byte) (i : Fin 64) (j : Fin 32) : Prop :=
  ∃ r row, rows[r]? = some row ∧ RowLit x0 (y + r) row i j

theorem RowLit.row_eq {x0 y : Nat} {row : Byte} {i : Fin 64} {j : Fin 32} (h : RowLit x0 y row i j) : j.val = y := by
  obtain ⟨c, -, -, -, hj⟩ := h
  exact hj

theorem drawPixel_draws (x y : Nat) (p : Canvas) :
    Draws (fun i j => i.val = x ∧ j.val = y) p (drawPixel x y p) where
  toggles i j h := by rw [drawPixel_pixel, ← Bool.decide_and, decide_eq_true h, Bool.xor_true]
  keeps i j hn := by rw [drawPixel_pixel, ← Bool.decide_and, decide_eq_false hn, Bool.xor_false]
  hit_iff := by simp only [drawPixel_hit, and_assoc]

theorem drawBit_draws (x0 y : Nat) (row : Byte) (p : Canvas) (c : Nat) :
    Draws (BitLit x0 y row c) p (if spriteBit row c then drawPixel (x0 + c) y p else p) := by
  by_cases h : spriteBit row c = true
  · rw [if_pos h]
    exact (drawPixel_draws (x0 + c) y p).congr fun i j => (and_iff_right h).symm
  · rw [if_neg h]
    exact .nothing fun i j hl => h hl.1

/-- Two bits of a row land on two columns. -/
theorem drawRow_draws (x0 y : Nat) (row : Byte) (p : Canvas) : Draws (RowLit x0 y row) p (drawRow x0 y row p) := by
  refine Draws.foldl (drawBit_draws x0 y row) (List.nodup_range.imp fun {c d} hne i j hc hd => ?_) p
  obtain ⟨-, hc, -⟩ := hc
  obtain ⟨-, hd, -⟩ := hd
  omega

theorem rowsLit_cons (x0 y : Nat) (row : Byte) (rows : List Byte) (i : Fin 64) (j : Fin 32) :
    RowsLit x0 y (row :: rows) i j ↔ RowLit x0 y row i j ∨ RowsLit x0 (y + 1) rows i j := by
  constructor
  · rintro ⟨_ | r, row', hr, hl⟩
    · cases hr
      exact .inl hl
    · rw [← Nat.succ_add_eq_add_succ] at hl
      exact .inr ⟨r, row', hr, hl⟩
  · rintro (hl | ⟨r, row', hr, hl⟩)
    · exact ⟨0, row, rfl, hl⟩
    · refine ⟨r + 1, row', hr, ?_⟩
      rwa [← Nat.succ_add_eq_add_succ]

/-- The rows after the first land below it. -/
theorem drawRows_draws (x0 y : Nat) (rows : List Byte) (p : Canvas) :
    Draws (RowsLit x0 y rows) p (drawRows x0 y rows p) := by
  induction rows generalizing y p with
  | nil => exact .nothing fun i j ⟨r, row, hr, _⟩ => by cases hr
  | cons row rows ih =>
    have hdisj : ∀ i j, RowLit x0 y row i j → ¬ RowsLit x0 (y + 1) rows i j := by
      rintro i j hl ⟨r, row', -, hl'⟩
      have hrow := hl.row_eq
      have hrow' := hl'.row_eq
      omega
    exact ((drawRow_draws x0 y row p).trans (ih (y + 1) _) hdisj).congr fun i j => (rowsLit_cons x0 y row rows i j).symm

/-! ## The state that a draw leaves (R201, R202 (e), (g)) -/

theorem flag_eq_one_iff (b : Bool) : flag b = 1 ↔ b = true := by cases b <;> decide

theorem flag_eq_zero_iff (b : Bool) : flag b = 0 ↔ b = false := by cases b <;> decide

/-- What `draw-sprite` leaves where it does not fail. -/
def State.drawn (s : State) (x y : Reg) (n : Height) : State :=
  (s.setFb (drawnCanvas x y n s).fb).setV VF (flag (drawnCanvas x y n s).hit)

section Drawn

variable {s t : State} {x y : Reg} {n : Height} {i : Fin 64} {j : Fin 32} {m : MayChange}

theorem encodes_drawSprite (x y : Reg) (n : Height) : Encodes (wordXYN 0xD x y n.val) (.drawSprite x y n) :=
  encodes_wordXYN (f := 0xD) (n := BitVec.ofFin n) rfl

theorem exec_drawSprite_of_inBounds (h : InBounds s.index n.val) :
    exec (.drawSprite x y n) s = .next (s.drawn x y n) := exec_drawSprite_in h

/-- The bytes at `I` are the sprite's rows. -/
theorem rowsLit_iff_spriteLit :
    RowsLit (s.v[x].toNat % 64) (s.v[y].toNat % 32) (s.mem.readBytes s.index.toNat n.val) i j ↔ SpriteLit s x y n i j := by
  constructor
  · rintro ⟨r, row, hr, c, hc, hbit, hi, hj⟩
    have hlt : r < n.val := by
      simpa using (List.getElem?_eq_some_iff.1 hr).1
    rw [Memory.readBytes_get _ _ _ _ hlt] at hr
    cases hr
    exact ⟨r, c, hlt, List.mem_range.1 hc, hi, hj, hbit⟩
  · rintro ⟨r, c, hr, hc, hi, hj, hbit⟩
    exact ⟨r, _, Memory.readBytes_get _ _ _ _ hr, c, List.mem_range.2 hc, hbit, hi, hj⟩

theorem drawnCanvas_draws (s : State) (x y : Reg) (n : Height) :
    Draws (SpriteLit s x y n) ⟨s.fb, false⟩ (drawnCanvas x y n s) :=
  (drawRows_draws _ _ _ _).congr fun _ _ => rowsLit_iff_spriteLit

theorem State.drawn_pixel_of_lit (h : SpriteLit s x y n i j) : (s.drawn x y n).pixel i j = !s.pixel i j :=
  (drawnCanvas_draws s x y n).toggles i j h

theorem State.drawn_pixel_of_unlit (h : ¬ SpriteLit s x y n i j) : (s.drawn x y n).pixel i j = s.pixel i j :=
  (drawnCanvas_draws s x y n).keeps i j h

theorem State.drawn_get_of_ne {r : Reg} (hr : r ≠ VF) : (s.drawn x y n).v[r] = s.v[r] :=
  (State.setV_get _ VF _ r).trans (if_neg hr)

theorem drawnCanvas_hit_iff :
    (drawnCanvas x y n s).hit = true ↔ ∃ (i : Fin 64) (j : Fin 32), SpriteLit s x y n i j ∧ s.pixel i j = true :=
  (drawnCanvas_draws s x y n).hit_iff.trans (or_iff_right Bool.false_ne_true)

theorem State.drawn_vf (s : State) (x y : Reg) (n : Height) :
    (s.drawn x y n).v[(15 : Reg)] = flag (drawnCanvas x y n s).hit :=
  (State.setV_get _ VF _ VF).trans (if_pos rfl)

theorem State.drawn_vf_eq_one_iff : (s.drawn x y n).v[(15 : Reg)] = 1 ↔
    ∃ (i : Fin 64) (j : Fin 32), SpriteLit s x y n i j ∧ s.pixel i j = true := by
  rw [State.drawn_vf, flag_eq_one_iff, drawnCanvas_hit_iff]

theorem State.drawn_vf_eq_zero_iff : (s.drawn x y n).v[(15 : Reg)] = 0 ↔
    ¬ ∃ (i : Fin 64) (j : Fin 32), SpriteLit s x y n i j ∧ s.pixel i j = true := by
  rw [State.drawn_vf, flag_eq_zero_iff, ← drawnCanvas_hit_iff, Bool.not_eq_true]

theorem Unchanged.drawn (h : Unchanged m s t) (hfb : m.fb = true) (hvf : VF ∈ m.regs) :
    Unchanged m s (t.drawn x y n) :=
  (h.setFb hfb _).setV hvf _

end Drawn

/-- Settles O30, by whether the sprite is in bounds. -/
theorem drawSpriteTogglesTheLitPixels : Obligations.DrawSpriteTogglesTheLitPixels := by
  refine fun x y n => ⟨encodes_drawSprite x y n, fun s => ⟨fun hout => ?_, fun hin => ?_⟩⟩
  · rw [exec_drawSprite_out (by omega), raise_of_encodes (encodes_drawSprite x y n)]
  · exact ⟨s.drawn x y n, exec_drawSprite_of_inBounds hin, fun _ _ => State.drawn_pixel_of_lit,
      fun _ _ => State.drawn_pixel_of_unlit, State.drawn_vf_eq_one_iff.2, State.drawn_vf_eq_zero_iff.2,
      (Unchanged.refl _ s).drawn rfl (List.mem_singleton_self VF)⟩

/-! ## The same sprite drawn twice (R203) -/

section Twice

variable {s t : State} {x y : Reg} {n : Height} {i : Fin 64} {j : Fin 32} {m : MayChange}

/-- A draw whose place is not in VF leaves the place and the sprite of the next one. -/
theorem spriteLit_drawn_iff (hx : x ≠ 15) (hy : y ≠ 15) :
    SpriteLit (s.drawn x y n) x y n i j ↔ SpriteLit s x y n i j := by
  rw [SpriteLit, State.drawn_get_of_ne hx, State.drawn_get_of_ne hy]
  rfl

theorem drawn_drawn_pixel (hx : x ≠ 15) (hy : y ≠ 15) :
    ((s.drawn x y n).drawn x y n).pixel i j = s.pixel i j := by
  by_cases h : SpriteLit s x y n i j
  · rw [State.drawn_pixel_of_lit ((spriteLit_drawn_iff hx hy).2 h), State.drawn_pixel_of_lit h, Bool.not_not]
  · rw [State.drawn_pixel_of_unlit (mt (spriteLit_drawn_iff hx hy).1 h), State.drawn_pixel_of_unlit h]

/-- The second draw turns off what the first turned on. -/
theorem drawn_drawn_vf_eq_one_iff (hx : x ≠ 15) (hy : y ≠ 15) :
    ((s.drawn x y n).drawn x y n).v[(15 : Reg)] = 1 ↔
      ∃ (i : Fin 64) (j : Fin 32), SpriteLit s x y n i j ∧ s.pixel i j = false := by
  rw [State.drawn_vf_eq_one_iff]
  refine exists₂_congr fun i j => (and_congr_left' (spriteLit_drawn_iff hx hy)).trans (and_congr_right fun h => ?_)
  rw [State.drawn_pixel_of_lit h, Bool.not_eq_true']

/-- The screen leaves the list where every pixel is back at its value. -/
theorem Unchanged.fb_false (h : Unchanged m s t) (hfb : ∀ i j, t.pixel i j = s.pixel i j) :
    Unchanged { m with fb := false } s t := by
  obtain ⟨hv, hi, hpc, hsp, hst, hdt, hsound, -, rest⟩ := h
  exact ⟨hv, hi, hpc, hsp, hst, hdt, hsound, fun _ => hfb, rest⟩

end Twice

/-- Settles O31: `I` is as it was, so the second draw is in bounds too, and it toggles the same pixels back. -/
theorem doubleDrawRestoresTheScreen : Obligations.DoubleDrawRestoresTheScreen := by
  intro x y n s hx hy hin
  have hframe := ((Unchanged.refl { regs := [15], fb := true } s).drawn (x := x) (y := y) (n := n) rfl
    (List.mem_singleton_self VF)).drawn (x := x) (y := y) (n := n) rfl (List.mem_singleton_self VF)
  exact ⟨s.drawn x y n, _, exec_drawSprite_of_inBounds hin, exec_drawSprite_of_inBounds (s := s.drawn x y n) hin,
    fun _ _ => drawn_drawn_pixel hx hy, drawn_drawn_vf_eq_one_iff hx hy,
    hframe.fb_false fun _ _ => drawn_drawn_pixel hx hy⟩

/-! ## The change notice (R204) -/

section ChangeNotice

variable {s t : State} {op : Word}

/-- The words of the two screen instructions. -/
theorem exists_touchesFb_iff : (∃ i, decodeWord op = some i ∧ touchesFb i = true) ↔
    op = 0x00E0 ∨ ∃ (x y : Reg) (n : Height), op = wordXYN 0xD x y n.val := by
  constructor
  · rintro ⟨i, hd, hi⟩
    cases i with
    | clearScreen => exact .inl (eq_of_encodes hd encodes_clearScreen)
    | drawSprite x y n => exact .inr ⟨x, y, n, eq_of_encodes hd (encodes_drawSprite x y n)⟩
    | _ => cases hi
  · rintro (rfl | ⟨x, y, n, rfl⟩)
    · exact ⟨_, encodes_clearScreen, rfl⟩
    · exact ⟨_, encodes_drawSprite x y n, rfl⟩

/-- The four results of a STEP: the cause, no word, an unknown word, an instruction (R9). -/
theorem stepResult_eq_stepped_true_iff : stepResult s t = .stepped true ↔
    t.fault = none ∧ ∃ op, fetch s = some op ∧ ∃ i, decodeWord op = some i ∧ touchesFb i = true := by
  unfold stepResult
  split
  · next f hf => simp [hf]
  · next hf =>
    split
    · next hop => simp [hop]
    · next op hop =>
      split
      · next hd => simp [hop, hd]
      · next i hd => simp [hf, hop, hd]

/-- With the latch clear a step goes on: every instruction does (R91). -/
theorem exists_step_eq_next (hs : s.fault = none) : ∃ t, step s = .next t := by
  rcases step_cases s with ⟨f, hf, -⟩ | ⟨-, -, h⟩ | ⟨op, -, -, -, h⟩ | ⟨op, i, -, -, -, h⟩
  · cases hs.symm.trans hf
  · exact ⟨_, h⟩
  · exact ⟨_, h⟩
  · obtain ⟨t, ht, -⟩ := exec_unchanged i (advance s)
    exact ⟨t, h.trans ht⟩

end ChangeNotice

/-- Settles O45: STEP's result is read off the word fetched and the latch left. -/
theorem changeNoticeMarksTheTwoScreenInstructions : Obligations.ChangeNoticeMarksTheTwoScreenInstructions := by
  intro s rnd hs
  obtain ⟨t, ht⟩ := exists_step_eq_next (s := s.setRndIn (some rnd)) hs
  refine ⟨_, _, stepCommand_of_next ht, stepResult_eq_stepped_true_iff.trans ?_⟩
  simp only [exists_touchesFb_iff, State.setRndIn_fault]

end Sys2Proof.Machine
end

section
/-! PROOFS of the statements on keys and timers (`spec/44_keys_timers.md` R220 to R225): the key skips on a key's own number,
the lowest pressed key, and that a STEP of `wait-for-key` with no key down leaves the state as it was. -/

namespace Sys2Proof.Machine

open Sys2Proof.Claims

/-! ## The key skips (R220, R221) -/

section KeySkips

variable {s : State} {x : Reg} {k : Fin 16}

theorem exec_skipKeyDown_of_eq (h : s.v[x].toNat = k.val) : exec (.skipKeyDown x) s = skipIf s.key[k] s :=
  (exec_skipKeyDown_of_lt (h.trans_lt k.isLt)).trans (congrArg (skipIf · s) (getElem_congr_idx h))

theorem exec_skipKeyUp_of_eq (h : s.v[x].toNat = k.val) : exec (.skipKeyUp x) s = skipIf (!s.key[k]) s :=
  (exec_skipKeyUp_of_lt (h.trans_lt k.isLt)).trans (congrArg (fun b => skipIf (!b) s) (getElem_congr_idx h))

end KeySkips

theorem encodes_skipKeyDown (x : Reg) : Encodes (wordXK 0xE x 0x9E) (.skipKeyDown x) :=
  encodes_wordXK (f := 0xE) (kk := 0x9E) rfl

theorem encodes_skipKeyUp (x : Reg) : Encodes (wordXK 0xE x 0xA1) (.skipKeyUp x) :=
  encodes_wordXK (f := 0xE) (kk := 0xA1) rfl

/-- Settles O32, by whether VX is the number of a key. -/
theorem keySkipsReadTheFlagOrFail : Obligations.KeySkipsReadTheFlagOrFail := by
  refine fun x => ⟨encodes_skipKeyDown x, encodes_skipKeyUp x, fun s => ⟨fun hx => ?_, fun k hk => ?_⟩⟩
  · have hge : ¬ (s.readV x).toNat < 16 := Nat.not_lt.2 hx
    rw [exec_skipKeyDown_of_ge hge, exec_skipKeyUp_of_ge hge]
    exact ⟨raise_of_encodes (encodes_skipKeyDown x) _ s, raise_of_encodes (encodes_skipKeyUp x) _ s⟩
  · exact ⟨skipsWhen_of_skipIf (exec_skipKeyDown_of_eq hk) Iff.rfl,
      skipsWhen_of_skipIf (exec_skipKeyUp_of_eq hk) (iff_of_eq (Bool.not_eq_true' _))⟩

/-! ## Waiting for a key (R222) -/

/-- A pressed key is the one found when no lower one is down (R222). -/
theorem lowestKey_eq_some {keys : Vector Bool 16} {k : Fin 16} (hk : keys[k] = true)
    (hlow : ∀ j : Fin 16, j < k → keys[j] = false) : lowestKey keys = some k := by
  cases h : lowestKey keys with
  | none => exact absurd ((lowestKey_none keys).1 h k) (by simp [hk])
  | some i =>
    obtain ⟨hi, hlow'⟩ := lowestKey_some h
    have hik : ¬ i < k := fun hlt => absurd (hlow i hlt) (by simp [hi])
    have hki : ¬ k < i := fun hlt => absurd (hlow' k hlt) (by simp [hk])
    rw [le_antisymm (not_lt.1 hki) (not_lt.1 hik)]

theorem encodes_waitKey (x : Reg) : Encodes (wordXK 0xF x 0x0A) (.waitKey x) :=
  encodes_wordXK (f := 0xF) (kk := 0x0A) rfl

section NoKeyDown

variable {s : State} {x : Reg} {rnd : Byte}

/-- The rewind undoes the advance (R93, R222). -/
theorem exec_waitKey_advance_of_none (h : lowestKey s.key = none) : exec (.waitKey x) (advance s) = .next s := by
  rw [exec_waitKey_of_none (s := advance s) h, advance_pc, BitVec.add_sub_cancel]
  rfl

theorem stepCommand_of_waitKey_none (hkeys : lowestKey s.key = none) (hs : s.fault = none) (hpc : s.pc.toNat ≤ 4094)
    (hw : Holds s s.pc.toNat (wordXK 0xF x 0x0A)) : stepCommand rnd s = .next (s.setRndIn none, .stepped false) := by
  have hstep := (step_of_holds (s := s.setRndIn (some rnd)) hs hpc hw (encodes_waitKey x)).trans
    (exec_waitKey_advance_of_none hkeys)
  rw [stepCommand_of_next hstep, stepResult_of_decodes (t := s.setRndIn (some rnd)) hs (fetch_of_holds hpc hw)
    (encodes_waitKey x)]
  rfl

end NoKeyDown

/-- Settles O33, by the key that is found. -/
theorem waitForKeyTakesTheLowestKey : Obligations.WaitForKeyTakesTheLowestKey := by
  refine fun x => ⟨encodes_waitKey x, fun s => ⟨fun hup => ?_, fun k hk hlow => ?_⟩⟩
  · have hnone := (lowestKey_none s.key).2 hup
    exact ⟨exec_waitKey_of_none hnone, fun _ => stepCommand_of_waitKey_none hnone⟩
  · have hnum : (BitVec.ofNat 8 k.val).toNat = k.val := by
      rw [BitVec.toNat_ofNat, Nat.mod_eq_of_lt (by omega)]
    exact setsReg_of_setV (exec_waitKey_of_some (lowestKey_eq_some hk hlow)) hnum

/-! ## The timers (R223 to R225, R260) -/

theorem soundOn_eq_true_iff (s : State) : s.soundOn = true ↔ s.st.toNat ≠ 0 :=
  decide_eq_true_iff.trans BitVec.toNat_ne

/-- Settles O34: each of the three is one write, of VX, `dt` or `st`. -/
theorem timerInstructionsMoveTimers : Obligations.TimerInstructionsMoveTimers := by
  refine fun x => ⟨encodes_wordXK (f := 0xF) (kk := 0x07) rfl, encodes_wordXK (f := 0xF) (kk := 0x15) rfl,
    encodes_wordXK (f := 0xF) (kk := 0x18) rfl, fun s => ⟨?_, ?_, ?_⟩⟩
  · exact setsReg_of_setV rfl rfl
  · exact ⟨_, rfl, rfl, (Unchanged.refl _ s).setDt rfl _⟩
  · exact ⟨_, rfl, rfl, soundOn_eq_true_iff (s.setSt s.v[x]), (Unchanged.refl _ s).setSt rfl _⟩

end Sys2Proof.Machine
end

section
/-! PROOFS of the statements on failures and the host's commands (`spec/60_exceptions.md` R241 to R268): a step with a clear
latch fails as the table gives or goes on, what `k` ticks leave, and that a parked state steps to itself. -/

namespace Sys2Proof.Machine

open Sys2Proof.Claims

/-! ## The failure of a step, one equation per branch (R241, R250) -/

/-- What a failing step leaves: the latch set, and `pc` advanced unless the fetch failed (R246, R248). -/
def State.failed (s : State) (f : FaultRecord) : State :=
  { s with pc := if f.cause = .fetchOutOfBounds then s.pc else s.pc + 2, fault := some f }

section StepFailure

variable {s t : State} {op : Word} {i : Instr} {f : FaultRecord}

theorem stepFailure_of_fetch_none (hop : fetch s = none) : stepFailure s = some ⟨.fetchOutOfBounds, s.pc, 0⟩ := by
  have hpc : ¬ s.pc.toNat ≤ 4094 := fun hpc => by cases (fetch_in s hpc).symm.trans hop
  exact if_pos (Nat.not_le.1 hpc)

/-- The word that the table reads is the one fetched. -/
theorem wordAtPc_of_fetch (hop : fetch s = some op) :
    wordOfBytes (s.mem.read s.pc.toNat) (s.mem.read (s.pc.toNat + 1)) = op :=
  Option.some.inj ((fetch_in s (pc_le_of_fetch hop)).symm.trans hop)

theorem stepFailure_of_unknown (hop : fetch s = some op) (hd : decodeWord op = none) : stepFailure s = none := by
  simp only [stepFailure, if_neg (Nat.not_lt.2 (pc_le_of_fetch hop)), wordAtPc_of_fetch hop, hd]

theorem stepFailure_of_decodes (hop : fetch s = some op) (hd : decodeWord op = some i) :
    stepFailure s = (instrFailure i s).map fun c => ⟨c, s.pc, op⟩ := by
  simp only [stepFailure, if_neg (Nat.not_lt.2 (pc_le_of_fetch hop)), wordAtPc_of_fetch hop, hd]

/-- The failure of an instruction does not depend on `pc`. -/
theorem instrFailure_advance (i : Instr) (s : State) : instrFailure i (advance s) = instrFailure i s := rfl

theorem stepFailure_setRndIn (s : State) (r : Option Byte) : stepFailure (s.setRndIn r) = stepFailure s := rfl

/-- A failure that an instruction raises, right after the advance: its address is the one it was fetched from, its word the one
fetched (R248). -/
theorem raise_advance_eq_failed {c : Cause} (hd : decodeWord op = some i) (hc : instrFailure i s = some c) :
    raise c i (advance s) = .next (s.failed ⟨c, s.pc, op⟩) := by
  have hne : c ≠ .fetchOutOfBounds := fun h => instrFailure_ne_fetchOutOfBounds i s (hc.trans (congrArg some h))
  rw [raise_eq, encode_of_decodeWord hd, advance_pc, BitVec.add_sub_cancel, State.failed, if_neg hne]
  rfl

/-- With the latch clear a step fails as the table gives, at the address it was fetched from, or goes on with the latch clear
(R241, R246, R248). -/
theorem step_failed_or_goes_on (hs : s.fault = none) :
    (∃ f, stepFailure s = some f ∧ f.iaddr = s.pc ∧ step s = .next (s.failed f)) ∨
    (stepFailure s = none ∧ ∃ t, step s = .next t ∧ t.fault = none) := by
  rcases step_cases s with ⟨f, hf, -⟩ | ⟨-, hop, h⟩ | ⟨op, -, hop, hd, h⟩ | ⟨op, i, -, hop, hd, h⟩
  · cases hs.symm.trans hf
  · exact .inl ⟨_, stepFailure_of_fetch_none hop, rfl, h⟩
  · exact .inr ⟨stepFailure_of_unknown hop hd, _, h, hs⟩
  · rcases exec_failsOrCompletes i (advance s) with ⟨c, hc, hraise⟩ | ⟨hnone, t, ht, hcomp⟩
    · rw [instrFailure_advance] at hc
      have hfail : stepFailure s = some ⟨c, s.pc, op⟩ := by rw [stepFailure_of_decodes hop hd, hc, Option.map_some]
      exact .inl ⟨_, hfail, rfl, by rw [h, hraise, raise_advance_eq_failed hd hc]⟩
    · have hfail : stepFailure s = none := by
        rw [stepFailure_of_decodes hop hd, ← instrFailure_advance, hnone, Option.map_none]
      exact .inr ⟨hfail, t, h.trans ht, hcomp.fault_eq.trans hs⟩

theorem step_of_stepFailure (hs : s.fault = none) (hf : stepFailure s = some f) : step s = .next (s.failed f) := by
  rcases step_failed_or_goes_on hs with ⟨f', hf', -, h⟩ | ⟨hnone, -⟩
  · cases hf'.symm.trans hf
    exact h
  · cases hnone.symm.trans hf

/-- A step that answers found the latch clear (R91). -/
theorem fault_eq_none_of_step (h : step s = .next t) : s.fault = none := by
  by_contra hne
  obtain ⟨f, hf⟩ := Option.ne_none_iff_exists'.1 hne
  cases (step_of_latched hf).symm.trans h

theorem stepResult_of_failed (hf : t.fault = some f) : stepResult s t = .fault f.cause := by
  simp only [stepResult, hf]

end StepFailure

/-- Settles O35: a step fails as the table gives or goes on, and the two other commands by the bound that each checks. -/
theorem failuresAreExactlyTheTable : Obligations.FailuresAreExactlyTheTable := by
  refine ⟨fun s hs => ?_, fun s k p hs => ?_, fun s font bs hs => ?_, fun s op rnd hs hpc hop hd => ?_, rfl⟩
  · rcases step_failed_or_goes_on hs with ⟨f, hf, -, h⟩ | ⟨hnone, t, h, ht⟩
    · exact ⟨_, h, hf.symm⟩
    · exact ⟨t, h, ht.trans hnone.symm⟩
  · split
    · next hk => rw [setKeyCommand_of_ge hs (Nat.not_lt.2 hk)]; rfl
    · next hk => rw [setKeyCommand_of_lt hs (Nat.lt_succ_of_le (Nat.not_lt.1 hk))]; exact hs
  · split
    · next hlong => rw [loadCommand_of_tooLong hs hlong]; rfl
    · next hfits => rw [loadCommand_of_fits hs hfits]; exact hs
  · exact ⟨_, stepCommand_of_unknown hs (fetch_of_holds hpc hop) hd, hs⟩

/-- Settles O36: a step that ends with the latch set has failed as the table gives. -/
theorem failuresArePrecise : Obligations.FailuresArePrecise := by
  refine ⟨fun s t f h hf => ?_, fun s f rnd hs hf => ?_, fun s k p hs hk => ?_, fun s font bs hs hlong => ?_⟩
  · rcases step_failed_or_goes_on (fault_eq_none_of_step h) with ⟨g, -, hg, hstep⟩ | ⟨-, u, hstep, hu⟩ <;>
      cases hstep.symm.trans h
    · cases hf
      exact ⟨rfl, hg⟩
    · cases hu.symm.trans hf
  · have hstep := step_of_stepFailure (s := s.setRndIn (some rnd)) hs ((stepFailure_setRndIn s _).trans hf)
    rw [stepCommand_of_next hstep, stepResult_of_failed (f := f) rfl]
    rfl
  · exact setKeyCommand_of_ge hs (Nat.not_lt.2 hk)
  · exact loadCommand_of_tooLong hs hlong

/-! ## TICK (R258, R259) -/

theorem countDown_eq_zero {b : Byte} (hb : b = 0) : countDown b = 0 := if_pos hb

theorem countDown_toNat_succ {b : Byte} (hb : b ≠ 0) : (countDown b).toNat + 1 = b.toNat := by
  have hpos : b.toNat ≠ 0 := BitVec.toNat_ne.1 hb
  rw [countDown_toNat]
  omega

theorem countDown_iterate_toNat (b : Byte) (k : Nat) : (countDown^[k] b).toNat = b.toNat - k := by
  induction k with
  | zero => rfl
  | succ k ih => rw [Function.iterate_succ_apply', countDown_toNat, ih, Nat.sub_sub]

/-- With the latch clear `k` ticks count each timer down `k` times and write nothing else. -/
theorem ticked_iterate {s : State} (hs : s.fault = none) (k : Nat) :
    ticked^[k] s = (s.setDt (countDown^[k] s.dt)).setSt (countDown^[k] s.st) := by
  induction k with
  | zero => rfl
  | succ k ih =>
    have htick := tickCommand_of_running (s := (s.setDt (countDown^[k] s.dt)).setSt (countDown^[k] s.st)) hs
    rw [Function.iterate_succ_apply', Function.iterate_succ_apply', Function.iterate_succ_apply', ih, ticked, htick]
    rfl

/-- Settles O42, by the countdown of a timer that is 0 and of one that is not. -/
theorem tickCountsBothTimersDown : Obligations.TickCountsBothTimersDown := by
  refine fun s => ⟨fun _ => tickCommand_of_latched, fun hs => ?_⟩
  exact ⟨_, tickCommand_of_running hs, countDown_eq_zero, countDown_toNat_succ, countDown_eq_zero,
    countDown_toNat_succ, ((Unchanged.refl _ s).setDt rfl _).setSt rfl _⟩

/-- Settles O43: the countdown `k` times, as a number, is a subtraction that stops at 0. -/
theorem timersReachZeroAndStay : Obligations.TimersReachZeroAndStay := by
  intro s k x hs
  rw [ticked_iterate hs]
  have hdt := countDown_iterate_toNat s.dt k
  exact ⟨hdt, countDown_iterate_toNat s.st k, setsReg_of_setV rfl hdt, ((Unchanged.refl _ s).setDt rfl _).setSt rfl _⟩

/-! ## SETKEY (R261) -/

/-- Settles O44, by the three branches of the command. -/
theorem setKeyWritesOneFlag : Obligations.SetKeyWritesOneFlag := by
  refine fun s k p => ⟨fun _ => setKeyCommand_of_latched, fun hs hk => setKeyCommand_of_ge hs (Nat.not_lt.2 hk), ?_⟩
  rintro i hs rfl
  refine ⟨_, setKeyCommand_of_lt hs i.isLt, ?_, fun j hj => ?_, rfl⟩
  · exact (State.setKey_get s i p i).trans (if_pos rfl)
  · exact (State.setKey_get s i p j).trans (if_neg hj)

/-! ## Parked states (R268) -/

/-- The word of a jump, as R268 writes it. -/
theorem encodes_jump (h : Addr) : Encodes (0x1000 ||| h.setWidth 16) (.jump h) := by
  have hword : (0x1000 ||| h.setWidth 16 : Word) = formatA 0x1 h := by
    rw [formatA, BitVec.append_def]
    rfl
  rw [hword]
  exact decodeWord_encode (.jump h)

namespace State.ParkedAt

variable {h : Addr} {s t : State}

/-- Whether a state is parked shows in its latch, `pc` and memory. -/
theorem of_eq (hp : s.ParkedAt h) (hfault : t.fault = s.fault) (hpc : t.pc = s.pc) (hmem : t.mem = s.mem) :
    t.ParkedAt h := by
  rwa [State.ParkedAt, hfault, hpc, hmem]

theorem fault_eq (hp : s.ParkedAt h) : s.fault = none := by
  obtain ⟨-, hs, -, -⟩ := hp
  exact hs

theorem pc_eq (hp : s.ParkedAt h) : s.pc = addrWord h := by
  obtain ⟨-, -, hpc, -⟩ := hp
  exact hpc

theorem fetch_eq (hp : s.ParkedAt h) : fetch s = some (0x1000 ||| h.setWidth 16) := by
  have hnum : s.pc.toNat = h.toNat := by rw [hp.pc_eq, addrWord_toNat]
  obtain ⟨hle, -, -, hword⟩ := hp
  rw [fetch_in s (hnum.trans_le hle), hnum, hword]

/-- The jump undoes the advance (R93, R132). -/
theorem step_eq (hp : s.ParkedAt h) : step s = .next s := by
  have hjump : exec (.jump h) (advance s) = .next (s.setPc (addrWord h)) := rfl
  rw [step_of_decodes hp.fault_eq hp.fetch_eq (encodes_jump h), hjump, ← hp.pc_eq]
  rfl

theorem stepCommand_eq (hp : s.ParkedAt h) (rnd : Byte) :
    stepCommand rnd s = .next (s.setRndIn none, .stepped false) := by
  have hset : (s.setRndIn (some rnd)).ParkedAt h := hp.of_eq rfl rfl rfl
  rw [stepCommand_of_next hset.step_eq, stepResult_of_decodes hset.fault_eq hp.fetch_eq (encodes_jump h)]
  rfl

theorem tickCommand (hp : s.ParkedAt h) : (tickCommand s).1.ParkedAt h := by
  rw [tickCommand_of_running hp.fault_eq]
  exact hp.of_eq rfl rfl rfl

theorem setKeyCommand (hp : s.ParkedAt h) (k : Fin 16) (p : Bool) : (setKeyCommand k.val p s).1.ParkedAt h := by
  rw [setKeyCommand_of_lt hp.fault_eq k.isLt]
  exact hp.of_eq rfl rfl rfl

theorem safeFor (hp : s.ParkedAt h) (n : Nat) : State.SafeFor n s := by
  induction n with
  | zero => exact hp.fault_eq
  | succ n ih => exact ⟨hp.fault_eq, s, hp.step_eq, ih⟩

end State.ParkedAt

/-- Settles O53: a parked state steps to itself, so any number of steps does. -/
theorem parkedStaysParked : Obligations.ParkedStaysParked := fun _ _ hp =>
  ⟨hp.step_eq, hp.stepCommand_eq, hp.tickCommand, hp.setKeyCommand, hp.safeFor⟩

end Sys2Proof.Machine
end

section
/-! PROOFS of the statements on RESET, LOAD and the lifecycle (`spec/70_reset_and_hazards.md` R290 to R297): the state that RESET
leaves, the memory that a LOAD leaves, and which command is answered where. -/

namespace Sys2Proof.Machine

/-! ## LOAD (R293) -/

/-- The memory that a LOAD leaves: the program image, and over it the font. -/
def Memory.loaded (m : Memory) (font : Font) (bs : List Byte) : Memory :=
  (m.writeBytes Config.entry.toNat bs).writeBytes 0 font.toList

/-- The state that a LOAD leaves. -/
def State.loaded (s : State) (font : Font) (bs : List Byte) : State := s.setMem (s.mem.loaded font bs)

section Load

variable {m : Memory} {s t : State} {font : Font} {bs : List Byte}

theorem Memory.loaded_read_font (k : Fin 80) : (m.loaded font bs).read k.val = font[k] := by
  have hget : font.toList[k.val]? = some font[k] := by simp
  rw [← Memory.read_writeBytes_of_getElem? _ 0 hget, Nat.zero_add, Memory.loaded]

/-- The font ends at 80, so it leaves the image alone. -/
theorem Memory.loaded_read_above {a : Nat} (ha : 80 ≤ a) :
    (m.loaded font bs).read a = (m.writeBytes 0x200 bs).read a :=
  Memory.read_writeBytes_outside _ _ _ _ (by simpa using ha)

theorem Memory.loaded_read_image {k : Nat} (hk : k < bs.length) : (m.loaded font bs).read (0x200 + k) = bs.getD k 0 := by
  rw [Memory.loaded_read_above (by omega), List.getD_eq_getElem _ _ hk]
  exact Memory.read_writeBytes_of_getElem? m 0x200 (List.getElem?_eq_getElem hk)

theorem Memory.loaded_read_outside {a : Nat} (ha : 80 ≤ a) (hout : ¬ (0x200 ≤ a ∧ a < 0x200 + bs.length)) :
    (m.loaded font bs).read a = m.read a := by
  rw [Memory.loaded_read_above ha, Memory.read_writeBytes_outside _ _ _ _ hout]

theorem loadCommand_eq_loaded (h : s.fault = none) (hl : bs.length ≤ 3584) :
    loadCommand font bs s = (s.loaded font bs, .ok) :=
  loadCommand_of_fits h (Nat.not_lt.2 hl)

/-- An image that fits ends at 4096 or below. -/
theorem Unchanged.loaded {c : MayChange} (h : Unchanged c s t) (hc : c.stored = (0, 4096)) (hl : bs.length ≤ 3584) :
    Unchanged c s (t.loaded font bs) := by
  have himage : Config.entry.toNat + bs.length ≤ 0 + 4096 := by rw [entry_toNat]; omega
  exact (h.setMem_writeBytes (by simp [hc]) (by rwa [hc])).setMem_writeBytes (by simp [hc]) (by simp [hc])

end Load

/-- Settles O40, by the three branches of the command. -/
theorem loadInstallsFontAndProgram : Obligations.LoadInstallsFontAndProgram := by
  refine fun font bs s => ⟨fun _ => loadCommand_of_latched, loadCommand_of_tooLong, fun hs hl => ?_⟩
  exact ⟨_, loadCommand_eq_loaded hs hl, fun _ => Memory.loaded_read_image, Memory.loaded_read_font,
    fun _ => Memory.loaded_read_outside, (Unchanged.refl _ s).loaded rfl hl⟩

/-! ## One command, by its place in the lifecycle (R291, R295, R296) -/

section Lifecycle

variable {font : Font} {bs : List Byte} {b : Block} {p : State × Result}

theorem fresh_or_running (h : b.lifecycle ≠ .unreset) : b.lifecycle = .fresh ∨ b.lifecycle = .running := by
  cases hl : b.lifecycle with
  | unreset => exact absurd hl h
  | fresh => exact .inl rfl
  | running => exact .inr rfl

theorem command_reset : command font .reset b = .next (⟨.fresh, (resetCommand b.machine).1⟩, .ok) := rfl

theorem command_load_of_fresh (h : b.lifecycle = .fresh) :
    command font (.load bs) b = answered (loadCommand font bs b.machine) := by
  simp only [command, h]

theorem command_load_of_running (h : b.lifecycle = .running) :
    command font (.load bs) b = .refused .loadOutsideLifecycle := by
  simp only [command, h]

theorem command_setKey (h : b.lifecycle ≠ .unreset) (k : Nat) (pressed : Bool) :
    command font (.setKey k pressed) b = answered (setKeyCommand k pressed b.machine) := by
  rcases fresh_or_running h with hl | hl <;> simp only [command, hl]

theorem command_tick (h : b.lifecycle ≠ .unreset) : command font .tick b = answered (tickCommand b.machine) := by
  rcases fresh_or_running h with hl | hl <;> simp only [command, hl]

theorem command_step (h : b.lifecycle ≠ .unreset) {rnd : Byte} (hp : stepCommand rnd b.machine = .next p) :
    command font (.step rnd) b = answered p := by
  rcases fresh_or_running h with hl | hl <;> simp only [command, hl, hp]

/-- STEP is always answered: with the latch set by its cause (R91), else because every step goes on. -/
theorem exists_stepCommand_eq_next (rnd : Byte) (s : State) : ∃ p, stepCommand rnd s = .next p := by
  cases hs : s.fault with
  | some f => exact ⟨_, stepCommand_of_latched hs⟩
  | none =>
    obtain ⟨t, ht⟩ := exists_step_eq_next (s := s.setRndIn (some rnd)) hs
    exact ⟨_, stepCommand_of_next ht⟩

/-- After the first RESET, every command but RESET and a late LOAD is answered. -/
theorem exists_command_eq_answered {c : Command} (h : b.lifecycle ≠ .unreset) (hc : c ≠ .reset)
    (hload : b.lifecycle = .running → ∀ bs, c ≠ .load bs) : ∃ p, command font c b = answered p := by
  cases c with
  | reset => exact absurd rfl hc
  | load bs =>
    rcases fresh_or_running h with hl | hl
    · exact ⟨_, command_load_of_fresh hl⟩
    · exact absurd rfl (hload hl bs)
  | setKey k pressed => exact ⟨_, command_setKey h k pressed⟩
  | step rnd =>
    obtain ⟨p, hp⟩ := exists_stepCommand_eq_next rnd b.machine
    exact ⟨p, command_step h hp⟩
  | tick => exact ⟨_, command_tick h⟩

end Lifecycle

/-- Settles O46: one clause for each place in the lifecycle. -/
theorem commandsOutOfPlaceAreRefused : Obligations.CommandsOutOfPlaceAreRefused := by
  refine fun font c b => ⟨command_of_unreset, ?_, ?_, fun h hc hload => ?_⟩
  · rintro bs hl rfl
    exact command_load_of_running hl
  · rintro rfl
    exact ⟨_, command_reset⟩
  · obtain ⟨p, hp⟩ := exists_command_eq_answered h hc hload
    exact ⟨p.1, p.2, hp⟩

/-! ## RESET (R290) -/

/-- RESET keeps nothing of the state before it but the model's own count. -/
theorem resetCommand_unchanged {c : MayChange} (hc : c.draws = true) (s : State) :
    Unchanged c State.reset (resetCommand s).1 := by
  simp [Unchanged, resetCommand, State.pixel, hc]

theorem resetCommand_read (s : State) (a : Nat) : (resetCommand s).1.mem.read a = 0 := rfl

theorem fetch_resetCommand (s : State) : fetch (resetCommand s).1 = some 0 := by
  have hpc : (0x200 : Word).toNat ≤ 4094 := by decide
  exact fetch_of_holds hpc (by simp [Claims.Holds, resetCommand_read])

/-- Settles O39: each vector of the reset state is one value repeated, and the word 0 is unknown. -/
theorem resetLeavesTheTable : Obligations.ResetLeavesTheTable := by
  refine fun s => ⟨_, rfl, fun r => Vector.getElem_replicate r.isLt, rfl, rfl, rfl, fun i => Vector.getElem_replicate i.isLt,
    rfl, rfl, resetCommand_read s, blankScreen_pixel, fun k => Vector.getElem_replicate k.isLt, rfl, fun rnd => ?_⟩
  have hunknown : decodeWord 0 = none := by decide
  exact stepCommand_of_unknown rfl (fetch_resetCommand s) hunknown

/-! ## RESET, then LOAD (R296, R297) -/

theorem commands_reset_load {font : Font} {bs : List Byte} (b : Block) (hl : bs.length ≤ 3584) :
    commands font [.reset, .load bs] b = .next ⟨.running, (resetCommand b.machine).1.loaded font bs⟩ := by
  have hload : command font (.load bs) ⟨.fresh, (resetCommand b.machine).1⟩ =
      answered ((resetCommand b.machine).1.loaded font bs, .ok) := by
    rw [command_load_of_fresh rfl, loadCommand_eq_loaded rfl hl]
  simp only [commands, command_reset, hload, answered]

/-- Settles O41: what LOAD leaves, over a memory of zeros. -/
theorem launchState : Obligations.LaunchState := fun _ _ b hl =>
  ⟨_, commands_reset_load b hl, (resetCommand_unchanged rfl b.machine).loaded rfl hl, Memory.loaded_read_font,
    fun _ => Memory.loaded_read_image, fun a ha hout =>
      (Memory.loaded_read_outside ha hout).trans (resetCommand_read b.machine a)⟩

end Sys2Proof.Machine
end
